-- ==== Sys2Proof/Word.lean ====
section
/-! DEFINITION. The word types of the Monochrome bitmap encoder (00_scope.md R6, R7): every stored value is an
unsigned bit vector of the width the spec gives it. -/

namespace Sys2Proof

/-- An 8-bit value: a colour channel, the accumulator, an output byte. -/
abbrev Byte := BitVec 8

/-- A port data word: `DATA_BITS` = 32 (00_scope.md R6). -/
abbrev Word := BitVec 32

/-- A frame dimension or a coordinate: `DIM_BITS` = 16 (00_scope.md R6). -/
abbrev Dim := BitVec 16

/-- A word address of the port: `ADDR_BITS` = 3 (00_scope.md R6). -/
abbrev Addr := BitVec 3

/-- A serialised transaction `T`: 36 bits (30_encoding.md R70). -/
abbrev TWord := BitVec 36

end Sys2Proof
end

