-- ==== Sys2Proof/Syntax.lean ====
section
/-! DEFINITION. The instructions of the block: the sixteen port transactions of 30_encoding.md R74, one constructor
per row of opcode_table.json. A read has no operand (R71); a write carries its `WDATA` (R72). -/

namespace Sys2Proof

/-- A port transaction (30_encoding.md R74). `v` is the transaction's `WDATA`. -/
inductive Instr where
  /-- RD.CTRL, H = 0x0 (41_control_and_config.md R134). -/
  | rdCtrl
  /-- RD.STATUS, H = 0x1 (41_control_and_config.md R135). -/
  | rdStatus
  /-- RD.DIM, H = 0x2 (41_control_and_config.md R138). -/
  | rdDim
  /-- RD.PIXEL, H = 0x3 (42_pixel_and_output.md R161). -/
  | rdPixel
  /-- RD.OUT, H = 0x4 (42_pixel_and_output.md R162). -/
  | rdOut
  /-- RD.LEN, H = 0x5 (41_control_and_config.md R139). -/
  | rdLen
  /-- RD.POS, H = 0x6 (41_control_and_config.md R141). -/
  | rdPos
  /-- RD.COUNT, H = 0x7 (41_control_and_config.md R143). -/
  | rdCount
  /-- WR.CTRL, H = 0x8 (41_control_and_config.md R130). -/
  | wrCtrl (v : Word)
  /-- WR.STATUS, H = 0x9 (41_control_and_config.md R136). -/
  | wrStatus (v : Word)
  /-- WR.DIM, H = 0xA (41_control_and_config.md R137). -/
  | wrDim (v : Word)
  /-- WR.PIXEL, H = 0xB (42_pixel_and_output.md R160). -/
  | wrPixel (v : Word)
  /-- WR.OUT, H = 0xC (42_pixel_and_output.md R163). -/
  | wrOut (v : Word)
  /-- WR.LEN, H = 0xD (41_control_and_config.md R140). -/
  | wrLen (v : Word)
  /-- WR.POS, H = 0xE (41_control_and_config.md R142). -/
  | wrPos (v : Word)
  /-- WR.COUNT, H = 0xF (41_control_and_config.md R144). -/
  | wrCount (v : Word)
deriving DecidableEq, Repr

end Sys2Proof
end

