-- ==== Sys2Proof/Machine/HostSide.lean ====
section
/-! DEFINITION. The host's side of the port: the register names (10_state.md R31), the assembler lines and
pseudo-instructions (30_encoding.md R77, R78), and a host bus access (00_scope.md R8, 20_memory.md R52, R53). All of it
is notation or host code: the block sees only the transaction it comes down to. -/

namespace Sys2Proof.Machine

/-- The eight port registers, in address order (10_state.md R31). -/
inductive Reg where
  | ctrl | status | dim | pixel | out | len | pos | count
deriving DecidableEq, Repr

/-- The word address of a register (10_state.md R31). -/
def Reg.addr : Reg → Addr
  | .ctrl => 0 | .status => 1 | .dim => 2 | .pixel => 3 | .out => 4 | .len => 5 | .pos => 6 | .count => 7

/-- The byte offset of a register: 4 × the word address (10_state.md R31). -/
def Reg.offset (r : Reg) : Nat := 4 * r.addr.toNat

/-- The register at a word address; every address is mapped (10_state.md R31, 20_memory.md R57). -/
def Reg.ofAddr (a : Addr) : Reg :=
  match a[2], a[1], a[0] with
  | false, false, false => .ctrl
  | false, false, true => .status
  | false, true, false => .dim
  | false, true, true => .pixel
  | true, false, false => .out
  | true, false, true => .len
  | true, true, false => .pos
  | true, true, true => .count

/-- The read transaction of a register (30_encoding.md R74). -/
def readOf : Reg → Instr
  | .ctrl => .rdCtrl
  | .status => .rdStatus
  | .dim => .rdDim
  | .pixel => .rdPixel
  | .out => .rdOut
  | .len => .rdLen
  | .pos => .rdPos
  | .count => .rdCount

/-- The write transaction of a register (30_encoding.md R74). -/
def writeOf (r : Reg) (v : Word) : Instr :=
  match r with
  | .ctrl => .wrCtrl v
  | .status => .wrStatus v
  | .dim => .wrDim v
  | .pixel => .wrPixel v
  | .out => .wrOut v
  | .len => .wrLen v
  | .pos => .wrPos v
  | .count => .wrCount v

/-- An assembler line (R77) or a pseudo-instruction (R78). Its numbers are as written, not yet checked to fit. -/
inductive Asm where
  /-- `RD <reg>` -/
  | rd (r : Reg)
  /-- `WR <reg>, <imm32>` -/
  | wr (r : Reg) (imm : Nat)
  | start
  | abort
  | clrErr
  | restart
  | setDim (w h : Nat)
  | push (r g b : Nat)
  | pushA (r g b a : Nat)
  | pop
  | poll
deriving DecidableEq, Repr

/-- The pixel word of four channel values: `a << 24 | b << 16 | g << 8 | r` (R78, 20_memory.md R54). -/
def pixelWord (r g b a : Nat) : Word := BitVec.ofNat 32 (a <<< 24 ||| b <<< 16 ||| g <<< 8 ||| r)

/-- The transaction an assembler line stands for (R78's expansions). Only lines that `Asm.wellFormed` accepts are
assembled (`assemble`, Decode.lean). -/
def Asm.expand : Asm → Instr
  | .rd r => readOf r
  | .wr r imm => writeOf r (BitVec.ofNat 32 imm)
  | .start => .wrCtrl 0x1
  | .abort => .wrCtrl 0x2
  | .clrErr => .wrCtrl 0x4
  | .restart => .wrCtrl 0x3
  | .setDim w h => .wrDim (BitVec.ofNat 32 (h <<< 16 ||| w))
  | .push r g b => .wrPixel (pixelWord r g b 0xFF)
  | .pushA r g b a => .wrPixel (pixelWord r g b a)
  | .pop => .rdOut
  | .poll => .rdStatus

/-- A host bus access before it reaches the port: a byte offset into the window, a size in bytes, and a value to
write (none for a read). `MemRead(off, 4)` and `MemWrite(off, 4, v)` of R8 are the ones the port has. -/
structure BusAccess where
  off  : Nat
  size : Nat
  data : Option Nat
deriving DecidableEq, Repr

/-- Why the host's side turns a bus access away before it reaches the port (93_implementation_defined.md U10). The
block itself never sees one. Safe: nothing of the block is claimed for it. -/
inductive BusRefusal where
  /-- The access is not 32 bits wide (R52). -/
  | notAWord
  /-- The byte offset is no multiple of 4 (R53). -/
  | misaligned
  /-- The byte offset is outside the window, 0x00 to 0x1C (R57). -/
  | outsideWindow
  /-- The value to write does not fit 32 bits. -/
  | valueTooWide
deriving DecidableEq, Repr

/-- The transaction a bus access becomes: word address `off div 4` (R8). -/
def BusAccess.transaction (m : BusAccess) : Except BusRefusal Instr :=
  if m.size ≠ 4 then .error .notAWord
  else if m.off % 4 ≠ 0 then .error .misaligned
  else if 0x1C < m.off then .error .outsideWindow
  else
    let r := Reg.ofAddr (BitVec.ofNat 3 (m.off / 4))
    match m.data with
    | none => .ok (readOf r)
    | some v => if 2 ^ 32 ≤ v then .error .valueTooWide else .ok (writeOf r (BitVec.ofNat 32 v))

/-- `MemRead(off, 4)` (R8). -/
def memRead (off : Nat) : Except BusRefusal Instr := BusAccess.transaction ⟨off, 4, none⟩

/-- `MemWrite(off, 4, v)` (R8). -/
def memWrite (off v : Nat) : Except BusRefusal Instr := BusAccess.transaction ⟨off, 4, some v⟩

end Sys2Proof.Machine
end

