-- ==== Sys2Proof/WellFormed.lean ====
section
/-! DEFINITION. Which terms are well formed: an assembler line's numbers fit their fields (30_encoding.md R77, R78).
An `Instr` has nothing to check, its operand is a 32-bit word by type and no encoding is illegal (R75); the one rule the
spec puts on software, reserved CTRL bits written as 0, is `Instr.portable`. -/

namespace Sys2Proof

/-- Every transaction is well formed: "No encoding is illegal, and none traps" (R75). -/
def Instr.wellFormed : Instr → Bool
  | .rdCtrl | .rdStatus | .rdDim | .rdPixel | .rdOut | .rdLen | .rdPos | .rdCount => true
  | .wrCtrl _ | .wrStatus _ | .wrDim _ | .wrPixel _ | .wrOut _ | .wrLen _ | .wrPos _ | .wrCount _ => true

/-- Software writes the reserved bits 31:3 of CTRL as 0 (R75, 93_implementation_defined.md U7). The block itself
ignores them, so this is a check on programs, never on what the block does. -/
def Instr.portable : Instr → Bool
  | .wrCtrl v => v >>> 3 == 0
  | .rdCtrl | .rdStatus | .rdDim | .rdPixel | .rdOut | .rdLen | .rdPos | .rdCount => true
  | .wrStatus _ | .wrDim _ | .wrPixel _ | .wrOut _ | .wrLen _ | .wrPos _ | .wrCount _ => true

/-- `<imm32>` is an unsigned 32-bit number (R77); SETDIM's numbers are in 0..65535 (R78); a channel is 0..255
(10_state.md R35). -/
def Machine.Asm.wellFormed : Machine.Asm → Bool
  | .rd _ | .start | .abort | .clrErr | .restart | .pop | .poll => true
  | .wr _ imm => decide (imm < 2 ^ 32)
  | .setDim w h => decide (w ≤ 65535) && decide (h ≤ 65535)
  | .push r g b => decide (r ≤ 255) && decide (g ≤ 255) && decide (b ≤ 255)
  | .pushA r g b a => decide (r ≤ 255) && decide (g ≤ 255) && decide (b ≤ 255) && decide (a ≤ 255)

end Sys2Proof
end

