-- ==== Sys2Proof/Decode.lean ====
section
/-! DEFINITION. The decoder and the encoder of 30_encoding.md. A serialised transaction is
`T = WE << 35 | ADDR << 32 | WDATA` (R70) and its header `H = T[35:32]` alone selects the transaction (R74). -/

namespace Sys2Proof

/-- `T` from a header and a `WDATA` (R70). -/
def serialise (h : BitVec 4) (wdata : Word) : TWord := h ++ wdata

/-- `T` from the port's signals (R70). -/
def serialisePort (we : Bool) (addr : Addr) (wdata : Word) : TWord := serialise (BitVec.ofBool we ++ addr) wdata

/-- `WDATA = T[31:0]` (R70). -/
def wdataOf (t : TWord) : Word := t.extractLsb' 0 32

/-- The transaction of a serialised word: the opcode map of R74, its rows read as the bits `WE`, `ADDR[2:0]` of the
header. It is total. A read drops `WDATA` (R71). -/
def decode (t : TWord) : Instr :=
  match t[35], t[34], t[33], t[32] with
  | false, false, false, false => .rdCtrl
  | false, false, false, true => .rdStatus
  | false, false, true, false => .rdDim
  | false, false, true, true => .rdPixel
  | false, true, false, false => .rdOut
  | false, true, false, true => .rdLen
  | false, true, true, false => .rdPos
  | false, true, true, true => .rdCount
  | true, false, false, false => .wrCtrl (wdataOf t)
  | true, false, false, true => .wrStatus (wdataOf t)
  | true, false, true, false => .wrDim (wdataOf t)
  | true, false, true, true => .wrPixel (wdataOf t)
  | true, true, false, false => .wrOut (wdataOf t)
  | true, true, false, true => .wrLen (wdataOf t)
  | true, true, true, false => .wrPos (wdataOf t)
  | true, true, true, true => .wrCount (wdataOf t)

/-- Why a number is no serialised transaction. Safe: the block's port cannot carry such a number. -/
inductive DecodeRefusal where
  /-- It has a 1 above bit 35, and there is one length, 36 bits (R70). -/
  | widerThan36Bits
deriving DecidableEq, Repr

/-- Decode a number of any size: a 36-bit one is a transaction, every other is refused by name. -/
def decodeNumber (w : Nat) : Except DecodeRefusal Instr :=
  if w < 2 ^ 36 then .ok (decode (BitVec.ofNat 36 w)) else .error .widerThan36Bits

/-- The decoder on an instruction given by its `nbits` low bits, numbered as opcode_table.json numbers them: bit 0 of
`w` is bit 0 of `T`. Bits from `nbits` up are 0. -/
def decodeTableWord (nbits w : Nat) : Option Instr :=
  match decodeNumber (w % 2 ^ nbits) with
  | .ok i => some i
  | .error _ => none

/-- The header of a transaction (R74). -/
def headerOf : Instr → BitVec 4
  | .rdCtrl => 0x0
  | .rdStatus => 0x1
  | .rdDim => 0x2
  | .rdPixel => 0x3
  | .rdOut => 0x4
  | .rdLen => 0x5
  | .rdPos => 0x6
  | .rdCount => 0x7
  | .wrCtrl _ => 0x8
  | .wrStatus _ => 0x9
  | .wrDim _ => 0xA
  | .wrPixel _ => 0xB
  | .wrOut _ => 0xC
  | .wrLen _ => 0xD
  | .wrPos _ => 0xE
  | .wrCount _ => 0xF

/-- The `WDATA` of a transaction; "The canonical serialisation writes `WDATA = 0`" for a read (R71). -/
def operandOf : Instr → Word
  | .rdCtrl | .rdStatus | .rdDim | .rdPixel | .rdOut | .rdLen | .rdPos | .rdCount => 0
  | .wrCtrl v | .wrStatus v | .wrDim v | .wrPixel v | .wrOut v | .wrLen v | .wrPos v | .wrCount v => v

/-- The canonical serialisation of a transaction (R70, R71). -/
def encode (i : Instr) : TWord := serialise (headerOf i) (operandOf i)

/-- The transaction of a well-formed assembler line (R77, R78); a number that does not fit its field is refused. -/
def assemble (a : Machine.Asm) : Option Instr := if a.wellFormed then some a.expand else none

end Sys2Proof
end

