-- ==== Sys2Proof/Machine/State.lean ====
section
/-! DEFINITION. The state of the machine: the block's complete state record (10_state.md R21), the port's output and
the port cycles the host drives next (20_memory.md R51), and the reasons a step can stop. -/

namespace Sys2Proof.Machine

/-- "The block's complete state is the record below" (10_state.md R21), with R21's names and widths. -/
structure Block where
  /-- Programmed frame width (R22). -/
  dim_w : Dim
  /-- Programmed frame height (R22). -/
  dim_h : Dim
  /-- Width latched by the last accepted START (R23). -/
  cfg_w : Dim
  /-- Height latched by the last accepted START (R23). -/
  cfg_h : Dim
  /-- A frame is running: more pixels are expected (R24). -/
  busy : Bool
  /-- The last frame took all its pixels (R24). -/
  done : Bool
  /-- The partial output byte of the current chunk (R25). -/
  acc : Byte
  /-- Number of bits now in `acc`, 0..7 (R25). -/
  nbits : BitVec 3
  /-- Column of the next pixel to be accepted (R26). -/
  x : Dim
  /-- Row of the next pixel to be accepted (R26). -/
  y : Dim
  /-- The byte waiting for the host (R27). -/
  out_data : Byte
  /-- A byte is waiting in `out_data` (R27). -/
  out_full : Bool
  /-- Bytes flushed since the last accepted START or ABORT (R28). -/
  count : Word
  /-- Sticky: a PIXEL write was dropped (R29). -/
  err_ovf : Bool
  /-- Sticky: OUT was read while empty (R29). -/
  err_udf : Bool
  /-- Sticky: a START was refused (R29). -/
  err_cmd : Bool
deriving DecidableEq, Repr

/-- "every field of the state record has the reset value in 10_state.md rule R21: all 0" (70_reset_and_hazards.md
R200). -/
def Block.reset : Block where
  dim_w := 0
  dim_h := 0
  cfg_w := 0
  cfg_h := 0
  busy := false
  done := false
  acc := 0
  nbits := 0
  x := 0
  y := 0
  out_data := 0
  out_full := false
  count := 0
  err_ovf := false
  err_udf := false
  err_cmd := false

/-- The port's inputs in one clock cycle (20_memory.md R51). -/
structure PortCycle where
  rst   : Bool
  sel   : Bool
  we    : Bool
  addr  : Addr
  wdata : Word
deriving DecidableEq, Repr

/-- The machine: the block, the `rdata` the port showed in the last cycle (R51; log entry 2), and the port cycles the
host drives next, oldest first (log entry 1). -/
structure State where
  block   : Block
  rdata   : Word
  pending : List PortCycle
deriving DecidableEq, Repr

/-- The machine right after reset (70_reset_and_hazards.md R200). `pending` is the model's own field: DESIGN CHOICE
the empty list (log entry 1, safe). -/
def State.reset : State where
  block := Block.reset
  rdata := 0
  pending := []

/-- The error causes of 60_exceptions.md R181. An error is no fault: it sets its sticky flag and the block goes on. -/
inductive ErrorCause where
  /-- ERR_OVF: a pixel was written while IN_READY = 0. Raised by WR.PIXEL. -/
  | ovf
  /-- ERR_UDF: OUT was read while no byte was waiting. Raised by RD.OUT. -/
  | udf
  /-- ERR_CMD: START was refused. Raised by WR.CTRL. -/
  | cmd
deriving DecidableEq, Repr

/-- Nothing faults: the block raises no trap, exception, interrupt or access fault (60_exceptions.md R180, R185, R186)
and no encoding is illegal (30_encoding.md R75). So there is no fault reason (log entry 9, safe). -/
inductive Fault
deriving DecidableEq, Repr

/-- Why an instruction has no meaning. -/
inductive Refusal where
  /-- The instruction of this mnemonic is not modelled yet. Raised by no arm of `exec`. Safe: the model stops. -/
  | notModelled (mnemonic : String)
deriving DecidableEq, Repr

end Sys2Proof.Machine
end

