-- ==== Sys2Proof/Machine/Flags.lean ====
section
/-! DEFINITION. The STATUS flags, computed from the state record at the moment of the read (10_state.md R30), and the
error codes (60_exceptions.md R181). -/

namespace Sys2Proof.Machine

/-- IN_READY: `busy and not out_full` (R30). -/
def inReady (b : Block) : Bool := b.busy && !b.out_full

/-- The STATUS word: the seven flags in bits 6..0, bits 31:7 zero (R30, 41_control_and_config.md R135). -/
def statusWord (b : Block) : Word :=
  (BitVec.ofBool b.err_cmd ++ BitVec.ofBool b.err_udf ++ BitVec.ofBool b.err_ovf ++ BitVec.ofBool b.out_full ++
    BitVec.ofBool (inReady b) ++ BitVec.ofBool b.done ++ BitVec.ofBool b.busy).setWidth 32

/-- The code of an error is its STATUS bit number (R181). -/
def ErrorCause.code : ErrorCause → Nat
  | .ovf => 4
  | .udf => 5
  | .cmd => 6

/-- The sticky flag of an error cause (R181). -/
def errorFlag (e : ErrorCause) (b : Block) : Bool :=
  match e with
  | .ovf => b.err_ovf
  | .udf => b.err_udf
  | .cmd => b.err_cmd

end Sys2Proof.Machine
end

