-- ==== Sys2Proof/Machine/Operands.lean ====
section
/-! DEFINITION. The fields each write takes from its `WDATA` (30_encoding.md R72), unsigned and unscaled. -/

namespace Sys2Proof.Machine

/-- `START = WDATA[0]` (R72). -/
def ctrlStart (v : Word) : Bool := v[0]

/-- `ABORT = WDATA[1]` (R72). -/
def ctrlAbort (v : Word) : Bool := v[1]

/-- `CLR_ERR = WDATA[2]` (R72). -/
def ctrlClrErr (v : Word) : Bool := v[2]

/-- `WIDTH = WDATA[15:0]` (R72). -/
def dimWidth (v : Word) : Dim := v.extractLsb' 0 16

/-- `HEIGHT = WDATA[31:16]` (R72). -/
def dimHeight (v : Word) : Dim := v.extractLsb' 16 16

/-- `R = WDATA[7:0]` (R72, 40_encoder_datapath.md R100). -/
def pixelR (v : Word) : Byte := v.extractLsb' 0 8

/-- `G = WDATA[15:8]` (R72, R100). -/
def pixelG (v : Word) : Byte := v.extractLsb' 8 8

/-- `B = WDATA[23:16]` (R72, R100). `WDATA[31:24]` is alpha and is read by no rule (R100). -/
def pixelB (v : Word) : Byte := v.extractLsb' 16 8

end Sys2Proof.Machine
end

