-- ==== Sys2Proof/Machine/Ops.lean ====
section
/-! DEFINITION. The operations the transactions share: ending a transaction, raising an error (the block's only
exception mechanism: 60_exceptions.md R180 to R182), the three sub-actions of CTRL, the read values of the eight
registers, and driving the port. -/

namespace Sys2Proof.Machine

/-! ### The port -/

/-- The end of a cycle: the block's new record and the `rdata` of the cycle (20_memory.md R51, R56). -/
def State.complete (s : State) (b : Block) (rdata : Word) : State := { s with block := b, rdata := rdata }

/-- A cycle with `sel = 0`: "not a transaction and changes no state", and `rdata` is 0 (20_memory.md R51). -/
def State.idle (s : State) : State := s.complete s.block 0

/-- A cycle with `rst = 1`: `sel` is ignored, `rdata` is 0, and every field has its reset value
(70_reset_and_hazards.md R200; log entry 4). -/
def State.hardwareReset (s : State) : State := s.complete Block.reset 0

/-- The oldest pending cycle is taken off the port's inputs. -/
def State.withPending (s : State) (cs : List PortCycle) : State := { s with pending := cs }

/-- The serialised word of a cycle's transaction (30_encoding.md R70). -/
def PortCycle.word (c : PortCycle) : TWord := serialisePort c.we c.addr c.wdata

/-- The cycle that drives a serialised word on the port: `WE = T[35]`, `ADDR = T[34:32]`, `WDATA = T[31:0]` (R70). -/
def PortCycle.ofWord (t : TWord) : PortCycle where
  rst := false
  sel := true
  we := t[35]
  addr := t.extractLsb' 32 3
  wdata := wdataOf t

/-- The cycle that drives a transaction on the port. -/
def PortCycle.ofInstr (i : Instr) : PortCycle := .ofWord (encode i)

/-- A cycle with no transaction (20_memory.md R51). -/
def PortCycle.noTransaction : PortCycle where
  rst := false
  sel := false
  we := false
  addr := 0
  wdata := 0

/-- The cycle that drives a number on the port: a number that is no serialised transaction cannot be driven, so its
cycle has no transaction (log entry 10). -/
def PortCycle.ofNumber (w : Nat) : PortCycle :=
  match decodeNumber w with
  | .ok _ => .ofWord (BitVec.ofNat 36 w)
  | .error _ => .noTransaction

/-! ### Errors -/

/-- `raise Err…()`: set the named sticky flag and nothing else (60_exceptions.md R181, R182). Nothing is saved and no
control is transferred (R180), so there is no return. -/
def raise (e : ErrorCause) (b : Block) : Block :=
  match e with
  | .ovf => { b with err_ovf := true }
  | .udf => { b with err_udf := true }
  | .cmd => { b with err_cmd := true }

/-! ### The sub-actions of CTRL -/

/-- The ABORT sub-action (41_control_and_config.md R131). -/
def abort (b : Block) : Block :=
  { b with busy := false, done := false, acc := 0, nbits := 0, x := 0, y := 0, out_data := 0, out_full := false, count := 0 }

/-- The CLR_ERR sub-action (41_control_and_config.md R132). -/
def clrErr (b : Block) : Block := { b with err_ovf := false, err_udf := false, err_cmd := false }

/-- START is refused when `busy = 1` or `out_full = 1` (41_control_and_config.md R133). -/
def startRefused (b : Block) : Bool := b.busy || b.out_full

/-- A frame with no pixels: `W = 0` or `H = 0` (R133). -/
def zeroArea (b : Block) : Bool := b.dim_w == 0 || b.dim_h == 0

/-- An accepted START: DIM is latched, the accumulator, the position and the count are cleared, and a zero-area frame
is done at once (R133). -/
def startFrame (b : Block) : Block :=
  { b with
    cfg_w := b.dim_w, cfg_h := b.dim_h, acc := 0, nbits := 0, x := 0, y := 0, count := 0,
    busy := !zeroArea b, done := zeroArea b }

/-- The START sub-action (41_control_and_config.md R133). -/
def start (b : Block) : Block := if startRefused b then raise .cmd b else startFrame b

/-- A write of CTRL: the sub-actions run in the order ABORT, CLR_ERR, START, each on what the one before it left
(41_control_and_config.md R130). -/
def writeCtrl (v : Word) (b : Block) : Block :=
  let b1 := if ctrlAbort v then abort b else b
  let b2 := if ctrlClrErr v then clrErr b1 else b1
  if ctrlStart v then start b2 else b2

/-- A write of DIM (41_control_and_config.md R137). -/
def writeDim (v : Word) (b : Block) : Block := { b with dim_w := dimWidth v, dim_h := dimHeight v }

/-! ### Read values -/

/-- `DIM = {dim_h, dim_w}` (41_control_and_config.md R138). -/
def dimWord (b : Block) : Word := b.dim_h ++ b.dim_w

/-- The bytes of one row of `w` pixels: `ceil(w / 8) = (w + 7) div 8` (00_scope.md R7). -/
def rowBytes (w : Nat) : Nat := (w + 7) / 8

/-- `LEN = (dim_h * ceil(dim_w / 8))[31:0]` (41_control_and_config.md R139). -/
def lenWord (b : Block) : Word := BitVec.ofNat 32 (b.dim_h.toNat * rowBytes b.dim_w.toNat)

/-- `POS = {y, x}` (41_control_and_config.md R141). -/
def posWord (b : Block) : Word := b.y ++ b.x

/-- `OUT`: VALID in bit 8 and the byte in bits 7:0 while a byte waits, else 0 (10_state.md R36). -/
def outWord (b : Block) : Word := if b.out_full then (1#1 ++ b.out_data).setWidth 32 else 0

/-- What a read of a register returns, computed from the state before the read (20_memory.md R56, 10_state.md R31 to
R39). -/
def readValue (r : Reg) (b : Block) : Word :=
  match r with
  | .ctrl => 0
  | .status => statusWord b
  | .dim => dimWord b
  | .pixel => 0
  | .out => outWord b
  | .len => lenWord b
  | .pos => posWord b
  | .count => b.count

/-- The side effect of a read of OUT: the waiting byte is popped and `out_data` keeps its value, or ERR_UDF is raised
(42_pixel_and_output.md R162). -/
def popOut (b : Block) : Block := if b.out_full then { b with out_full := false } else raise .udf b

/-- A read whose register has no side effect (20_memory.md R55): the block keeps its record. -/
def State.read (r : Reg) (s : State) : State := s.complete s.block (readValue r s.block)

/-- A write: `rdata` is 0 (20_memory.md R51). -/
def State.write (b : Block) (s : State) : State := s.complete b 0

end Sys2Proof.Machine
end

