-- ==== Sys2Proof/Machine/ControlConfig.lean ====
section
/-! DEFINITION. The control, configuration and status transactions (41_control_and_config.md). -/

namespace Sys2Proof.Machine

/-- RD.CTRL (R134): returns 0, "because CTRL holds no state". -/
def execRdCtrl (s : State) : Host.Outcome State Fault Refusal := .next (s.read .ctrl)

/-- RD.STATUS (R135). -/
def execRdStatus (s : State) : Host.Outcome State Fault Refusal := .next (s.read .status)

/-- RD.DIM (R138): the programmed dimensions, not the latched ones. -/
def execRdDim (s : State) : Host.Outcome State Fault Refusal := .next (s.read .dim)

/-- RD.LEN (R139). -/
def execRdLen (s : State) : Host.Outcome State Fault Refusal := .next (s.read .len)

/-- RD.POS (R141). -/
def execRdPos (s : State) : Host.Outcome State Fault Refusal := .next (s.read .pos)

/-- RD.COUNT (R143). -/
def execRdCount (s : State) : Host.Outcome State Fault Refusal := .next (s.read .count)

/-- WR.CTRL (R130): the sub-actions ABORT (R131), CLR_ERR (R132), START (R133), in that order. -/
def execWrCtrl (v : Word) (s : State) : Host.Outcome State Fault Refusal := .next (s.write (writeCtrl v s.block))

/-- WR.STATUS (R136): the write is ignored. -/
def execWrStatus (_v : Word) (s : State) : Host.Outcome State Fault Refusal := .next (s.write s.block)

/-- WR.DIM (R137): legal at any time; a running frame uses the latched dimensions (20_memory.md R60). -/
def execWrDim (v : Word) (s : State) : Host.Outcome State Fault Refusal := .next (s.write (writeDim v s.block))

/-- WR.LEN (R140): the write is ignored. -/
def execWrLen (_v : Word) (s : State) : Host.Outcome State Fault Refusal := .next (s.write s.block)

/-- WR.POS (R142): the write is ignored. -/
def execWrPos (_v : Word) (s : State) : Host.Outcome State Fault Refusal := .next (s.write s.block)

/-- WR.COUNT (R144): the write is ignored. -/
def execWrCount (_v : Word) (s : State) : Host.Outcome State Fault Refusal := .next (s.write s.block)

end Sys2Proof.Machine
end

