-- ==== Sys2Proof/Config.lean ====
section
/-! DEFINITION. The parameters of 00_scope.md R6 and the values this hardware gives them. `DIM_BITS`,
`DATA_BITS` and `ADDR_BITS` are the widths of Word.lean, and `OUT_DEPTH` = 1 is the one `out_data` of the state record. The
spec leaves no value open, so there is no free value here. -/

namespace Sys2Proof

/-- The placement of the bits of a row's last, partial byte (R6; 40_encoder_datapath.md R106). -/
inductive TailAlign where
  /-- The bits stay in the low positions, no final shift: this hardware's setting. -/
  | lsbLiteral
  /-- The bits move to the high positions and zeros fill the low ones: the named alternative. -/
  | msbPadded
deriving DecidableEq, Repr

/-- This hardware's `TAIL_ALIGN` (R6). -/
def Config.tailAlign : TailAlign := .lsbLiteral

/-- The luminance weight of red, in hundredths (R6). -/
def Config.weightR : Nat := 30

/-- The luminance weight of green, in hundredths (R6). -/
def Config.weightG : Nat := 59

/-- The luminance weight of blue, in hundredths (R6). -/
def Config.weightB : Nat := 11

/-- The luminance below which a bit is 1 (R6). -/
def Config.threshold : Nat := 128

/-- The threshold on the scale of the weights: 12800 in hundredths (R6). -/
def Config.thresholdHundredths : Nat := 100 * Config.threshold

end Sys2Proof
end

