-- ==== Sys2Proof/Machine/Datapath.lean ====
section
/-! DEFINITION. The encoder datapath (40_encoder_datapath.md R100 to R110): luminance, threshold, accumulation, flush,
position. The tail alignment is an argument; this hardware's value is `Config.tailAlign`. -/

namespace Sys2Proof.Machine

/-- `luma(r, g, b) = 30*r + 59*g + 11*b`, exact (R101). -/
def luma (r g b : Byte) : Nat :=
  Config.weightR * r.toNat + Config.weightG * g.toNat + Config.weightB * b.toNat

/-- The bit of a pixel word: 1 if its luminance sum is below 12800 (R102). Alpha is not read (R100). -/
def pixelBit (p : Word) : Bool := decide (luma (pixelR p) (pixelG p) (pixelB p) < Config.thresholdHundredths)

/-- `a1 = ((acc << 1) | bit)[7:0]` (R104). -/
def accumulate (acc : Byte) (bit : Bool) : Byte := acc <<< 1 ||| (BitVec.ofBool bit).setWidth 8

/-- The byte flushed for `n` accumulated bits (R106). -/
def tail (t : TailAlign) (a : Byte) (n : Nat) : Byte :=
  if n = 8 then a
  else match t with
    | .lsbLiteral => a
    | .msbPadded => a <<< (8 - n)

/-- `s.x == s.cfg_w - 1`, over the integers (00_scope.md R7, R105). -/
def lastColumn (b : Block) : Bool := b.x.toNat + 1 == b.cfg_w.toNat

/-- `s.y + 1 == s.cfg_h`, over the integers (R109, R110). -/
def lastRow (b : Block) : Bool := b.y.toNat + 1 == b.cfg_h.toNat

/-- `n1 = s.nbits + 1`, an integer 1..8 (R104). -/
def bitsAfter (b : Block) : Nat := b.nbits.toNat + 1

/-- The byte is flushed if and only if `n1 == 8` or the row ends (R105). -/
def flushes (b : Block) : Bool := bitsAfter b == 8 || lastColumn b

/-- A flush: the byte goes to the output register, is counted, and the accumulator restarts (R106, R107). -/
def flushByte (byte : Byte) (b : Block) : Block :=
  { b with out_data := byte, out_full := true, count := b.count + 1, acc := 0, nbits := 0 }

/-- No flush: the accumulator keeps the bits (R107). -/
def holdBits (a : Byte) (n : Nat) (b : Block) : Block := { b with acc := a, nbits := BitVec.ofNat 3 n }

/-- Accumulate one bit and flush if the byte is complete (R104 to R107). -/
def packBit (t : TailAlign) (bit : Bool) (b : Block) : Block :=
  if flushes b then flushByte (tail t (accumulate b.acc bit) (bitsAfter b)) b
  else holdBits (accumulate b.acc bit) (bitsAfter b) b

/-- The position after a pixel that is not the last of its row (R108). -/
def nextColumn (b : Block) : Block := { b with x := b.x + 1 }

/-- The position after a row's last pixel (R108). -/
def nextRow (b : Block) : Block := { b with x := 0, y := b.y + 1 }

/-- The frame has taken all its pixels (R109). -/
def endFrame (b : Block) : Block := { b with busy := false, done := true }

/-- The position advance and the end of the frame (R108, R109). -/
def advance (b : Block) : Block :=
  if lastColumn b then (if lastRow b then endFrame (nextRow b) else nextRow b) else nextColumn b

/-- `pixel_step(s, p)`: the whole effect of one accepted pixel (R110). Packing writes none of the fields that the
advance reads, so doing one after the other is R110's "all assignments take effect together". -/
def pixelStep (t : TailAlign) (p : Word) (b : Block) : Block := advance (packBit t (pixelBit p) b)

/-- A write of PIXEL: the pixel is taken while IN_READY = 1, else dropped with ERR_OVF (42_pixel_and_output.md
R160). -/
def writePixel (t : TailAlign) (p : Word) (b : Block) : Block :=
  if inReady b then pixelStep t p b else raise .ovf b

end Sys2Proof.Machine
end

