-- ==== Sys2Proof/Machine/PixelOutput.lean ====
section
/-! DEFINITION. The pixel input and byte output transactions (42_pixel_and_output.md). -/

namespace Sys2Proof.Machine

/-- WR.PIXEL (R160), with this hardware's tail alignment (00_scope.md R6). -/
def execWrPixel (v : Word) (s : State) : Host.Outcome State Fault Refusal :=
  .next (s.write (writePixel Config.tailAlign v s.block))

/-- RD.PIXEL (R161): returns 0; the block keeps no copy of the last pixel. -/
def execRdPixel (s : State) : Host.Outcome State Fault Refusal := .next (s.read .pixel)

/-- RD.OUT (R162): `rdata` from the state before the read, then the pop or ERR_UDF (20_memory.md R56). -/
def execRdOut (s : State) : Host.Outcome State Fault Refusal :=
  .next (s.complete (popOut s.block) (readValue .out s.block))

/-- WR.OUT (R163): the write is ignored. -/
def execWrOut (_v : Word) (s : State) : Host.Outcome State Fault Refusal := .next (s.write s.block)

end Sys2Proof.Machine
end

