-- ==== Sys2Proof/Machine/Dispatch.lean ====
section
/-! DEFINITION. One arm per transaction of 30_encoding.md R74. -/

namespace Sys2Proof.Machine

def exec (i : Instr) (s : State) : Host.Outcome State Fault Refusal :=
  match i with
  | .rdCtrl => Sys2Proof.Machine.execRdCtrl s
  | .rdStatus => Sys2Proof.Machine.execRdStatus s
  | .rdDim => Sys2Proof.Machine.execRdDim s
  | .rdPixel => Sys2Proof.Machine.execRdPixel s
  | .rdOut => Sys2Proof.Machine.execRdOut s
  | .rdLen => Sys2Proof.Machine.execRdLen s
  | .rdPos => Sys2Proof.Machine.execRdPos s
  | .rdCount => Sys2Proof.Machine.execRdCount s
  | .wrCtrl v => Sys2Proof.Machine.execWrCtrl v s
  | .wrStatus v => Sys2Proof.Machine.execWrStatus v s
  | .wrDim v => Sys2Proof.Machine.execWrDim v s
  | .wrPixel v => Sys2Proof.Machine.execWrPixel v s
  | .wrOut v => Sys2Proof.Machine.execWrOut v s
  | .wrLen v => Sys2Proof.Machine.execWrLen v s
  | .wrPos v => Sys2Proof.Machine.execWrPos v s
  | .wrCount v => Sys2Proof.Machine.execWrCount v s

end Sys2Proof.Machine
end

