-- ==== Sys2Proof/Machine/Step.lean ====
section
/-! DEFINITION. One step is one rising edge of the port's clock (20_memory.md R51). -/

namespace Sys2Proof.Machine

/-- The step takes the oldest pending port cycle: `rst = 1` resets the block whatever `sel` says
(70_reset_and_hazards.md R200), `sel = 1` runs the decoded transaction, and `sel = 0` changes nothing (R51). With no
cycle pending the port is idle (log entry 3). -/
def step (s : State) : Host.Outcome State Fault Refusal :=
  match s.pending with
  | [] => .next s.idle
  | c :: rest =>
    if c.rst then .next (s.withPending rest).hardwareReset
    else if c.sel then exec (decode c.word) (s.withPending rest)
    else .next (s.withPending rest).idle

/-- `s` with the transaction of the low `nbits` bits of `w` driven on the port in the next cycle, before the cycles
already pending. -/
def State.withFetchWord (s : State) (nbits w : Nat) : State :=
  s.withPending (PortCycle.ofNumber (w % 2 ^ nbits) :: s.pending)

end Sys2Proof.Machine
end

