-- ==== Sys2Proof/Machine/Reference.lean ====
section
/-! DEFINITION. The reference function of the source's contract `encode(buffer: PixelBuffer) -> PackedBitmap`
(40_encoder_datapath.md R111) and its closed form (R112), for both tail alignments. They are functions of a whole pixel
list and know nothing of the block's state. -/

namespace Sys2Proof.Machine

/-- A frame to encode: its pixels are a flat sequence in raster order (00_scope.md R9, R2). -/
structure PixelBuffer where
  width  : Nat
  height : Nat
  pixels : List Word
deriving DecidableEq, Repr

/-- The buffer has `width * height` pixels (00_scope.md R9). -/
def PixelBuffer.wellFormed (p : PixelBuffer) : Bool := p.pixels.length == p.width * p.height

/-- An encoded frame: `(W, H, encode(W, H, P))` (R111). -/
structure PackedBitmap where
  width  : Nat
  height : Nat
  bytes  : List Byte
deriving DecidableEq, Repr

/-- The pixel at column `x` and row `y`: `P[y*W + x]` (R111). Past the end of a list that is too short it is 0 (log
entry 11); a well-formed buffer has no such pixel. -/
def pixelAt (w : Nat) (ps : List Word) (x y : Nat) : Word := ps.getD (y * w + x) 0

/-- The pixels of row `y`, left to right. -/
def rowPixels (w : Nat) (ps : List Word) (y : Nat) : List Word := (List.range w).map fun x => pixelAt w ps x y

/-- The inner loop of R111 from column `x` on, with `n` bits in `acc`: accumulate, and flush at 8 bits or at the row's
end. -/
def packRow (t : TailAlign) (w : Nat) (x : Nat) (acc : Byte) (n : Nat) : List Word → List Byte
  | [] => []
  | p :: ps =>
    if n + 1 = 8 ∨ x + 1 = w then tail t (accumulate acc (pixelBit p)) (n + 1) :: packRow t w (x + 1) 0 0 ps
    else packRow t w (x + 1) (accumulate acc (pixelBit p)) (n + 1) ps

/-- `encode(W, H, P)`: the rows in order, each from an empty accumulator (R111). -/
def encodeBytes (t : TailAlign) (w h : Nat) (ps : List Word) : List Byte :=
  (List.range h).flatMap fun y => packRow t w 0 0 0 (rowPixels w ps y)

/-- The contract `encode(buffer)` (R2, R111). -/
def encodeBitmap (t : TailAlign) (p : PixelBuffer) : PackedBitmap :=
  ⟨p.width, p.height, encodeBytes t p.width p.height p.pixels⟩

/-- `n_c = min(8, W - 8c)`: the pixels of chunk `c` (R112). -/
def chunkSize (w c : Nat) : Nat := min 8 (w - 8 * c)

/-- The bit position of the `j`-th pixel of a chunk of `n` pixels (R112). -/
def bitPosition (t : TailAlign) (n j : Nat) : Nat :=
  if n = 8 then 7 - j
  else match t with
    | .lsbLiteral => n - 1 - j
    | .msbPadded => 7 - j

/-- The closed form of output byte number `y*C + c`: the sum of its pixels' bits, each shifted to its position
(R112). -/
def chunkValue (t : TailAlign) (w : Nat) (ps : List Word) (y c : Nat) : Nat :=
  ((List.range (chunkSize w c)).map fun j =>
    (pixelBit (pixelAt w ps (8 * c + j) y)).toNat <<< bitPosition t (chunkSize w c) j).sum

end Sys2Proof.Machine
end

