-- ==== Sys2Proof/Machine/HostProtocol.lean ====
section
/-! DEFINITION. The host as an agent (00_scope.md R5): a sequence of transactions put through the block, what the host
reads back, and the host protocol of 70_reset_and_hazards.md R203. All of it is host code over `exec`. -/

namespace Sys2Proof.Machine

/-- One transaction; none if the machine stops. -/
def transact (i : Instr) (s : State) : Option State :=
  match exec i s with
  | .next t => some t
  | .fault _ => none
  | .refused _ => none

/-- Transactions in the order the port receives them (20_memory.md R59): the state after the last, and the `rdata` of
each. -/
def runHost : List Instr → State → Option (State × List Word)
  | [], s => some (s, [])
  | i :: is, s =>
    match transact i s with
    | none => none
    | some t =>
      match runHost is t with
      | none => none
      | some (u, rs) => some (u, t.rdata :: rs)

/-- The pixel words of a sequence of transactions, in order. -/
def pixelsOf (is : List Instr) : List Word :=
  is.filterMap fun i => match i with
    | .wrPixel v => some v
    | _ => none

/-- The bytes the host reads: of each read of OUT with VALID = 1, its bits 7:0 (10_state.md R36). -/
def poppedBytes (is : List Instr) (rs : List Word) : List Byte :=
  (is.zip rs).filterMap fun e => match e with
    | (.rdOut, r) => if r[8] then some (r.extractLsb' 0 8) else none
    | _ => none

/-- The byte still waiting in OUT, if any (10_state.md R27). -/
def waitingByte (b : Block) : List Byte := if b.out_full then [b.out_data] else []

/-- A write of CTRL. -/
def isCtrlWrite : Instr → Bool
  | .wrCtrl _ => true
  | .rdCtrl | .rdStatus | .rdDim | .rdPixel | .rdOut | .rdLen | .rdPos | .rdCount => false
  | .wrStatus _ | .wrDim _ | .wrPixel _ | .wrOut _ | .wrLen _ | .wrPos _ | .wrCount _ => false

/-- `repeat RD STATUS until bit 2 (IN_READY) == 1` (R203), giving up after `polls` reads. -/
def pollReady : Nat → State → Option State
  | 0, _ => none
  | k + 1, s =>
    match transact .rdStatus s with
    | none => none
    | some t => if t.rdata[2] then some t else pollReady k t

/-- `if bit 3 (OUT_VALID) of RD STATUS == 1: b <- RD OUT` (R203). -/
def drainOut (s : State) : Option (State × List Byte) :=
  match transact .rdStatus s with
  | none => none
  | some t =>
    if t.rdata[3] then
      match transact .rdOut t with
      | none => none
      | some u => some (u, if u.rdata[8] then [u.rdata.extractLsb' 0 8] else [])
    else some (t, [])

/-- The loop body of R203 for one pixel. -/
def sendPixel (polls : Nat) (p : Word) (s : State) : Option (State × List Byte) :=
  match pollReady polls s with
  | none => none
  | some t =>
    match transact (.wrPixel p) t with
    | none => none
    | some u => drainOut u

/-- The loop of R203: the pixels in order, and the bytes read. -/
def sendPixels (polls : Nat) : List Word → State → Option (State × List Byte)
  | [], s => some (s, [])
  | p :: ps, s =>
    match sendPixel polls p s with
    | none => none
    | some (t, bs) =>
      match sendPixels polls ps t with
      | none => none
      | some (u, cs) => some (u, bs ++ cs)

/-- The DIM word of a frame: `(H << 16) | W` (R203). -/
def dimOperand (w h : Dim) : Word := h ++ w

/-- The host protocol of R203 for one frame: DIM, START, the pixels, and a last read of STATUS. -/
def sendFrame (polls : Nat) (w h : Dim) (ps : List Word) (s : State) : Option (State × List Byte) :=
  match transact (.wrDim (dimOperand w h)) s with
  | none => none
  | some t =>
    match transact (.wrCtrl 0x1) t with
    | none => none
    | some u =>
      match sendPixels polls ps u with
      | none => none
      | some (v, bs) =>
        match transact .rdStatus v with
        | none => none
        | some r => some (r, bs)

/-- A FrameSet: the frames one after the other, each with its own START (R208). -/
def sendFrames (polls : Nat) (w h : Dim) : List (List Word) → State → Option (State × List (List Byte))
  | [], s => some (s, [])
  | f :: fs, s =>
    match sendFrame polls w h f s with
    | none => none
    | some (t, bs) =>
      match sendFrames polls w h fs t with
      | none => none
      | some (u, bss) => some (u, bs :: bss)

/-- The datapath alone, for either tail alignment: each pixel's `pixel_step`, a flushed byte taken at once. -/
def streamPixels (t : TailAlign) : List Word → Block → Block × List Byte
  | [], b => (b, [])
  | p :: ps, b =>
    let b1 := pixelStep t p b
    let r := streamPixels t ps { b1 with out_full := false }
    (r.1, waitingByte b1 ++ r.2)

end Sys2Proof.Machine
end

