-- ==== Sys2Proof/Safety.lean ====
section
/-! DEFINITION. What a run of the block may be relied on for: the invariants of 10_state.md R40, the end of a frame
(70_reset_and_hazards.md R207), and the ways two records can agree. -/

namespace Sys2Proof.Machine

/-- No error flag is set: the premise of a claim about a frame's output (70_reset_and_hazards.md R207). -/
abbrev Block.noErrors (b : Block) : Prop := b.err_ovf = false ∧ b.err_udf = false ∧ b.err_cmd = false

/-- "A frame has ended when DONE = 1 and OUT_VALID = 0" (R207). -/
abbrev Block.frameEnded (b : Block) : Prop := b.done = true ∧ b.out_full = false

/-- Two records agree but for `dim_w` and `dim_h`. -/
def Block.sameButDim (a b : Block) : Prop := { a with dim_w := b.dim_w, dim_h := b.dim_h } = b

/-- Two records agree but for the error flags. -/
def Block.sameButErrors (a b : Block) : Prop :=
  { a with err_ovf := b.err_ovf, err_udf := b.err_udf, err_cmd := b.err_cmd } = b

/-! ### The invariants of 10_state.md R40, clause by clause -/

/-- R40.1: `not (busy and done)`. -/
abbrev Block.busyNotDone (b : Block) : Prop := ¬(b.busy = true ∧ b.done = true)

/-- R40.2: a running frame has an area and its position is inside it. -/
abbrev Block.positionInFrame (b : Block) : Prop :=
  b.busy = true → 1 ≤ b.cfg_w.toNat ∧ 1 ≤ b.cfg_h.toNat ∧ b.x.toNat < b.cfg_w.toNat ∧ b.y.toNat < b.cfg_h.toNat

/-- R40.3: `nbits = x mod 8`, and both are 0 while no frame runs. -/
abbrev Block.bitsFollowColumn (b : Block) : Prop :=
  b.nbits.toNat = b.x.toNat % 8 ∧ (b.busy = false → b.x = 0 ∧ b.nbits = 0)

/-- R40.4: `acc < 2^nbits`. -/
abbrev Block.accFits (b : Block) : Prop := b.acc.toNat < 2 ^ b.nbits.toNat

/-- R40.5: `count = y * ceil(cfg_w / 8) + (x div 8)`. -/
abbrev Block.countFollowsPosition (b : Block) : Prop :=
  b.count.toNat = b.y.toNat * rowBytes b.cfg_w.toNat + b.x.toNat / 8

/-- R40.6: where a frame that took all its pixels stands; in the zero-area case `y = 0` and `count = 0`. -/
abbrev Block.doneAtEnd (b : Block) : Prop :=
  b.done = true →
    b.x = 0 ∧ (b.y = b.cfg_h ∨ b.cfg_w = 0 ∨ b.cfg_h = 0) ∧ (b.cfg_w = 0 ∨ b.cfg_h = 0 → b.y = 0 ∧ b.count = 0)

/-- R40.7: `count ≤ 536 862 720` and `y ≤ cfg_h`. -/
abbrev Block.countBounded (b : Block) : Prop := b.count.toNat ≤ 536862720 ∧ b.y.toNat ≤ b.cfg_h.toNat

/-- R40.8: `out_full → count ≥ 1`. -/
abbrev Block.waitingByteCounted (b : Block) : Prop := b.out_full = true → 1 ≤ b.count.toNat

/-- R40.9: when `done = 1` and `out_full = 0`, `count = cfg_h * ceil(cfg_w / 8)`. -/
abbrev Block.doneCount (b : Block) : Prop :=
  b.done = true ∧ b.out_full = false → b.count.toNat = b.cfg_h.toNat * rowBytes b.cfg_w.toNat

/-- The nine invariants of R40. -/
abbrev Block.Inv (b : Block) : Prop :=
  b.busyNotDone ∧ b.positionInFrame ∧ b.bitsFollowColumn ∧ b.accFits ∧ b.countFollowsPosition ∧ b.doneAtEnd ∧
    b.countBounded ∧ b.waitingByteCounted ∧ b.doneCount

end Sys2Proof.Machine
end

