-- ==== Sys2Proof/Certificates/Slice0/Obligations.lean ====
section
/-! DEFINITION. The statements for the provers. Each docstring names the rules of spec/ it formalises. An equation
`exec i s = .next { s with … }` gives the whole next state, so it is the instruction's frame too: every field it does not
name is unchanged. -/

open Sys2Proof Sys2Proof.Machine

/-! ### Encoding -/

/-- Words written out from 30_encoding.md R74 and R78, bit by bit, decode to what they stand for, and a number wider
than 36 bits is refused by name (the model's choice, log entry 10). -/
def Obligations.WrittenWordsDecode : Prop :=
  decode 0b0000_00000000000000000000000000000000#36 = .rdCtrl ∧
  decode 0b0001_00000000000000000000000000000000#36 = .rdStatus ∧
  decode 0b0100_00000000000000000000000000000000#36 = .rdOut ∧
  decode 0b0111_00000000000000000000000000000000#36 = .rdCount ∧
  decode 0b1000_00000000000000000000000000000011#36 = .wrCtrl 0x3 ∧
  decode 0b1010_00000000000000010000000000001000#36 = .wrDim 0x00010008 ∧
  decode 0b1011_11111111000000000000000000000000#36 = .wrPixel 0xFF000000 ∧
  decode 0b1111_00000000000000000000000000000101#36 = .wrCount 0x5 ∧
  decodeNumber (2 ^ 36) = .error .widerThan36Bits

/-- 30_encoding.md R70, R71, R74: the layout of `T`, and the header alone selects the transaction, whatever `WDATA`
holds. A read's canonical `WDATA` is 0. -/
def Obligations.HeaderSelectsTransaction : Prop :=
  (∀ (we : Bool) (addr : Addr) (v : Word), serialisePort we addr v =
    ((BitVec.ofBool we).setWidth 36 <<< 35 ||| addr.setWidth 36 <<< 32 ||| v.setWidth 36)) ∧
  (∀ (h : BitVec 4) (v : Word), serialise h v &&& 0xF00000000 = h.setWidth 36 <<< 32) ∧
  (∀ v : Word,
    decode (serialise 0x0 v) = .rdCtrl ∧ decode (serialise 0x1 v) = .rdStatus ∧
    decode (serialise 0x2 v) = .rdDim ∧ decode (serialise 0x3 v) = .rdPixel ∧
    decode (serialise 0x4 v) = .rdOut ∧ decode (serialise 0x5 v) = .rdLen ∧
    decode (serialise 0x6 v) = .rdPos ∧ decode (serialise 0x7 v) = .rdCount ∧
    decode (serialise 0x8 v) = .wrCtrl v ∧ decode (serialise 0x9 v) = .wrStatus v ∧
    decode (serialise 0xA v) = .wrDim v ∧ decode (serialise 0xB v) = .wrPixel v ∧
    decode (serialise 0xC v) = .wrOut v ∧ decode (serialise 0xD v) = .wrLen v ∧
    decode (serialise 0xE v) = .wrPos v ∧ decode (serialise 0xF v) = .wrCount v) ∧
  encode .rdCtrl = 0x000000000 ∧ encode .rdStatus = 0x100000000 ∧ encode .rdDim = 0x200000000 ∧
  encode .rdPixel = 0x300000000 ∧ encode .rdOut = 0x400000000 ∧ encode .rdLen = 0x500000000 ∧
  encode .rdPos = 0x600000000 ∧ encode .rdCount = 0x700000000

/-- Decode and encode agree on every transaction, with every operand (30_encoding.md R70, R74). -/
def Obligations.DecodeOfEncodeIsTheInstruction : Prop :=
  ∀ i : Instr, i.wellFormed = true → decode (encode i) = i

/-- The other direction: a word is the serialisation of what it decodes to, but for the `WDATA` of a read, which R71
says is ignored and canonically 0. -/
def Obligations.EncodeOfDecodeIsCanonical : Prop :=
  ∀ t : TWord, encode (decode t) = if t[35] then t else t &&& 0xF00000000

/-- 30_encoding.md R78: every pseudo-instruction's expansion and its serialised `T`; R77: the lines `RD <reg>` and
`WR <reg>, <imm32>`. The ranges are R78's for SETDIM, R77's for `<imm32>` and 10_state.md R35's for a channel; that a
line with a number outside its range is not assembled is the model's choice (log entry 16). -/
def Obligations.PseudoInstructionsExpand : Prop :=
  (assemble .start).map encode = some 0x800000001 ∧
  (assemble .abort).map encode = some 0x800000002 ∧
  (assemble .clrErr).map encode = some 0x800000004 ∧
  (assemble .restart).map encode = some 0x800000003 ∧
  (assemble .pop).map encode = some 0x400000000 ∧
  (assemble .poll).map encode = some 0x100000000 ∧
  (∀ w h : Nat, w ≤ 65535 → h ≤ 65535 →
    ∃ i, assemble (.setDim w h) = some i ∧ (encode i).toNat = 0xA * 2 ^ 32 + h * 2 ^ 16 + w) ∧
  (∀ w h : Nat, 65535 < w ∨ 65535 < h → assemble (.setDim w h) = none) ∧
  (∀ r g b : Nat, r ≤ 255 → g ≤ 255 → b ≤ 255 →
    ∃ i, assemble (.push r g b) = some i ∧
      (encode i).toNat = 0xB * 2 ^ 32 + 0xFF * 2 ^ 24 + b * 2 ^ 16 + g * 2 ^ 8 + r) ∧
  (∀ r g b : Nat, 255 < r ∨ 255 < g ∨ 255 < b → assemble (.push r g b) = none) ∧
  (∀ r g b a : Nat, r ≤ 255 → g ≤ 255 → b ≤ 255 → a ≤ 255 →
    ∃ i, assemble (.pushA r g b a) = some i ∧
      (encode i).toNat = 0xB * 2 ^ 32 + a * 2 ^ 24 + b * 2 ^ 16 + g * 2 ^ 8 + r) ∧
  (∀ r g b a : Nat, 255 < r ∨ 255 < g ∨ 255 < b ∨ 255 < a → assemble (.pushA r g b a) = none) ∧
  (∀ r : Reg, assemble (.rd r) = some (readOf r)) ∧
  (∀ (r : Reg) (v : Nat), v < 2 ^ 32 → assemble (.wr r v) = some (writeOf r (BitVec.ofNat 32 v))) ∧
  (∀ (r : Reg) (v : Nat), 2 ^ 32 ≤ v → assemble (.wr r v) = none)

/-- A 32-bit host access at a register's byte offset, 4 × its word address (10_state.md R31), is that register's
transaction (00_scope.md R8), and all eight port addresses are decoded (20_memory.md R57). The last clause is the
model's choice (log entry 13, after 93_implementation_defined.md U10): a narrow, misaligned or outside access is refused
on the host's side, where a bus fabric might split or widen it. -/
def Obligations.HostBusReachesEveryRegister : Prop :=
  (∀ r : Reg, memRead r.offset = .ok (readOf r) ∧
    ∀ v : Nat, v < 2 ^ 32 → memWrite r.offset v = .ok (writeOf r (BitVec.ofNat 32 v))) ∧
  (∀ (a : Addr) (v : Word), decode (serialisePort false a v) = readOf (Reg.ofAddr a) ∧
    decode (serialisePort true a v) = writeOf (Reg.ofAddr a) v) ∧
  (∀ m : BusAccess, m.size ≠ 4 ∨ m.off % 4 ≠ 0 ∨ 0x1C < m.off → ∀ i, m.transaction ≠ .ok i)

/-! ### The port and reset -/

/-- A step runs the decoded transaction: the oldest pending cycle is taken, and `exec` of what it decodes to is the
step. -/
def Obligations.StepRunsDecodedTransaction : Prop :=
  ∀ (s : State) (c : PortCycle) (rest : List PortCycle) (i : Instr),
    s.pending = c :: rest → c.rst = false → c.sel = true → i.wellFormed = true → decode c.word = i →
    step s = exec i { s with pending := rest }

/-- 20_memory.md R51: a cycle with `sel = 0` is no transaction and changes no state, and `rdata` is 0. With no cycle
pending the port is idle (the model's choice, log entry 3). -/
def Obligations.IdleCycleChangesNothing : Prop :=
  (∀ (s : State) (c : PortCycle) (rest : List PortCycle),
    s.pending = c :: rest → c.rst = false → c.sel = false →
    step s = .next { s with rdata := 0, pending := rest }) ∧
  (∀ s : State, s.pending = [] → step s = .next { s with rdata := 0 })

/-- 70_reset_and_hazards.md R200: a cycle with `rst = 1` accepts no transaction whatever `sel`, `we`, `addr` and
`wdata` say, `rdata` is 0, and the block is left with every field 0; every register then reads 0. -/
def Obligations.HardwareResetCycle : Prop :=
  (∀ (s : State) (c : PortCycle) (rest : List PortCycle), s.pending = c :: rest → c.rst = true →
    step s = .next { block := State.reset.block, rdata := 0, pending := rest }) ∧
  (∀ (s : State) (r : Reg), s.block = State.reset.block →
    ∃ t, exec (readOf r) s = .next t ∧ t.rdata = 0)

/-- 10_state.md R21: the reset value of every field of the state record is 0. -/
def Obligations.ResetRecordIsAllZero : Prop :=
  let b := State.reset.block
  b.dim_w.toNat = 0 ∧ b.dim_h.toNat = 0 ∧ b.cfg_w.toNat = 0 ∧ b.cfg_h.toNat = 0 ∧ b.busy = false ∧ b.done = false ∧
  b.acc.toNat = 0 ∧ b.nbits.toNat = 0 ∧ b.x.toNat = 0 ∧ b.y.toNat = 0 ∧ b.out_data.toNat = 0 ∧ b.out_full = false ∧
  b.count.toNat = 0 ∧ b.err_ovf = false ∧ b.err_udf = false ∧ b.err_cmd = false

/-- Nothing stops the machine: no encoding is illegal and none traps (30_encoding.md R75, 60_exceptions.md R180). -/
def Obligations.EveryStepAnswersANextState : Prop :=
  ∀ s : State, ∃ t, step s = .next t ∧ t.pending = s.pending.tail

/-- 20_memory.md R59: the block's state after a sequence of transactions is the result of applying each one to the
state the previous one left, in the order the port received them. -/
def Obligations.PortSerialisesTransactions : Prop :=
  ∀ (is : List Instr) (s : State), ∃ u rs, runHost is s = some (u, rs) ∧ rs.length = is.length ∧
    Host.Core.run Sys2Proof.core is.length { s with pending := is.map PortCycle.ofInstr ++ s.pending } = .next u

/-! ### Control, configuration and status transactions -/

/-- 41_control_and_config.md R134 and 42_pixel_and_output.md R161: CTRL and PIXEL read 0 in every state, and no state
changes. -/
def Obligations.RdCtrlAndRdPixelReadZero : Prop :=
  (∀ v : Word, decode (serialise 0x0 v) = .rdCtrl ∧ decode (serialise 0x3 v) = .rdPixel) ∧
  ∀ s : State, exec .rdCtrl s = .next { s with rdata := 0 } ∧ exec .rdPixel s = .next { s with rdata := 0 }

/-- 41_control_and_config.md R135: the STATUS word, bit by bit; the read has no side effect. -/
def Obligations.RdStatusReadsTheFlags : Prop :=
  (∀ v : Word, decode (serialise 0x1 v) = .rdStatus) ∧
  (∀ s : State, ∃ r : Word,
    exec .rdStatus s = .next { s with rdata := r } ∧
    exec .rdStatus { s with rdata := r } = .next { s with rdata := r } ∧
    r[0] = s.block.busy ∧ r[1] = s.block.done ∧
    r[2] = (s.block.busy && !s.block.out_full) ∧ r[3] = s.block.out_full ∧
    r[4] = s.block.err_ovf ∧ r[5] = s.block.err_udf ∧ r[6] = s.block.err_cmd ∧
    (∀ k, 7 ≤ k → r.getLsbD k = false) ∧
    (r[2] = true → r[0] = true) ∧
    (s.block.Inv → ¬(r[0] = true ∧ r[1] = true))) ∧
  exec .rdStatus State.reset = .next State.reset ∧
  (∀ s : State, s.block.busy = true → s.block.done = false → s.block.out_full = true → s.block.noErrors →
    exec .rdStatus s = .next { s with rdata := 0x00000009 })

/-- 41_control_and_config.md R138: DIM reads the programmed dimensions, not the latched ones. -/
def Obligations.RdDimReadsProgrammedDimensions : Prop :=
  (∀ v : Word, decode (serialise 0x2 v) = .rdDim) ∧
  (∀ s : State, ∃ r : Word, exec .rdDim s = .next { s with rdata := r } ∧
    r.toNat = s.block.dim_h.toNat * 2 ^ 16 + s.block.dim_w.toNat) ∧
  (∀ s : State, ∃ t, runHost [.wrDim 0x00020003, .rdDim] s = some (t, [0, 0x00020003]))

/-- 41_control_and_config.md R139 and 10_state.md R37: LEN is `dim_h * ceil(dim_w / 8)`, never more than 0x1FFF_E000,
with the rule's corner cases and its example. -/
def Obligations.RdLenReadsByteCountOfDimensions : Prop :=
  (∀ v : Word, decode (serialise 0x5 v) = .rdLen) ∧
  ∀ s : State, ∃ r : Word, exec .rdLen s = .next { s with rdata := r } ∧
    r.toNat = s.block.dim_h.toNat * ((s.block.dim_w.toNat + 7) / 8) ∧ r.toNat ≤ 0x1FFFE000 ∧
    (s.block.dim_w = 0 ∨ s.block.dim_h = 0 → r = 0) ∧
    (s.block.dim_w = 1 → r.toNat = s.block.dim_h.toNat) ∧
    (s.block.dim_w = 9 → r.toNat = 2 * s.block.dim_h.toNat) ∧
    (s.block.dim_w = 0xFFFF → s.block.dim_h = 0xFFFF → r = 0x1FFFE000) ∧
    (s.block.dim_w = 3 → s.block.dim_h = 2 → r = 2)

/-- 41_control_and_config.md R141: POS reads `{y, x}`; where it stands after a frame, after a zero-area START and
beside the accumulator; the rule's example. -/
def Obligations.RdPosReadsPositionCounter : Prop :=
  (∀ v : Word, decode (serialise 0x6 v) = .rdPos) ∧
  (∀ s : State, ∃ r : Word, exec .rdPos s = .next { s with rdata := r } ∧
    r.toNat = s.block.y.toNat * 2 ^ 16 + s.block.x.toNat ∧
    (s.block.Inv → s.block.nbits.toNat = r.toNat % 2 ^ 16 % 8) ∧
    (s.block.Inv → s.block.done = true → s.block.cfg_w ≠ 0 → s.block.cfg_h ≠ 0 →
      r.toNat = s.block.cfg_h.toNat * 2 ^ 16) ∧
    (s.block.Inv → s.block.done = true → s.block.cfg_w = 0 ∨ s.block.cfg_h = 0 → r = 0)) ∧
  ((runHost [.wrDim 0x00020003, .wrCtrl 0x1, .wrPixel 0, .wrPixel 0, .wrPixel 0, .rdOut, .wrPixel 0, .rdPos]
    State.reset).map Prod.snd = some [0, 0, 0, 0, 0, 0x00000107, 0, 0x00010001])

/-- 41_control_and_config.md R143: COUNT reads `count`; a read of OUT does not change it; a complete frame's count; the
rule's example. -/
def Obligations.RdCountReadsFlushedBytes : Prop :=
  (∀ v : Word, decode (serialise 0x7 v) = .rdCount) ∧
  (∀ s : State, exec .rdCount s = .next { s with rdata := s.block.count }) ∧
  (∀ s : State, ∃ t, exec .rdOut s = .next t ∧ t.block.count = s.block.count) ∧
  (∀ s : State, s.block.Inv → s.block.done = true →
    s.block.count.toNat = s.block.cfg_h.toNat * ((s.block.cfg_w.toNat + 7) / 8)) ∧
  ((runHost ([.wrDim 0x00010009, .wrCtrl 0x1] ++ List.replicate 8 (.wrPixel 0) ++ [.rdOut, .wrPixel 0, .rdCount])
    State.reset).map Prod.snd = some (List.replicate 10 0 ++ [0x000001FF, 0, 2]))

/-- 41_control_and_config.md R136, R140, R142, R144 and 42_pixel_and_output.md R163: the write is ignored, no field of
the record changes and no flag records it. -/
def Obligations.IgnoredWritesChangeNothing : Prop :=
  (∀ v : Word, decode (serialise 0x9 v) = .wrStatus v ∧ decode (serialise 0xC v) = .wrOut v ∧
    decode (serialise 0xD v) = .wrLen v ∧ decode (serialise 0xE v) = .wrPos v ∧ decode (serialise 0xF v) = .wrCount v) ∧
  ∀ (v : Word) (s : State),
    exec (.wrStatus v) s = .next { s with rdata := 0 } ∧ exec (.wrOut v) s = .next { s with rdata := 0 } ∧
    exec (.wrLen v) s = .next { s with rdata := 0 } ∧ exec (.wrPos v) s = .next { s with rdata := 0 } ∧
    exec (.wrCount v) s = .next { s with rdata := 0 } ∧
    (s.block.out_full = true → s.block.out_data = 0x05 →
      ∃ t, runHost [.wrOut v, .rdOut] s = some (t, [0, 0x00000105]))

/-- 41_control_and_config.md R137: DIM takes `WIDTH = v[15:0]`, `HEIGHT = v[31:16]` in every state, and nothing else
changes; DIM and LEN show it at once; the rule's example. -/
def Obligations.WrDimProgramsDimensions : Prop :=
  (∀ v : Word, decode (serialise 0xA v) = .wrDim v) ∧
  (∀ (v : Word) (s : State), ∃ w h : Dim, w.toNat = v.toNat % 2 ^ 16 ∧ h.toNat = v.toNat / 2 ^ 16 ∧
    exec (.wrDim v) s = .next { s with block := { s.block with dim_w := w, dim_h := h }, rdata := 0 }) ∧
  (∀ (v : Word) (s : State), ∃ t n, runHost [.wrDim v, .rdDim, .rdLen] s = some (t, [0, v, n]) ∧
    n.toNat = v.toNat / 2 ^ 16 * ((v.toNat % 2 ^ 16 + 7) / 8)) ∧
  (∀ s : State, ∃ t, runHost [.wrDim 0x00400080, .rdLen] s = some (t, [0, 0x00000400])) ∧
  encode (.wrDim 0x00400080) = 0xA00400080

/-- 41_control_and_config.md R130: the sub-actions ABORT, CLR_ERR, START run in that order, each on the state the
previous one left; the reserved bits are ignored; the rule's corner cases and example. -/
def Obligations.WrCtrlRunsSubActionsInOrder : Prop :=
  (∀ v : Word, decode (serialise 0x8 v) = .wrCtrl v) ∧
  (∀ (v : Word) (s : State),
    let b := s.block
    let b1 : Block := if v[1] then { b with
        busy := false, done := false, acc := 0, nbits := 0, x := 0, y := 0, out_data := 0, out_full := false,
        count := 0 } else b
    let b2 : Block := if v[2] then { b1 with err_ovf := false, err_udf := false, err_cmd := false } else b1
    let b3 : Block :=
      if v[0] then
        if b2.busy = true ∨ b2.out_full = true then { b2 with err_cmd := true }
        else { b2 with
          cfg_w := b2.dim_w, cfg_h := b2.dim_h, acc := 0, nbits := 0, x := 0, y := 0, count := 0,
          busy := decide (¬(b2.dim_w = 0 ∨ b2.dim_h = 0)), done := decide (b2.dim_w = 0 ∨ b2.dim_h = 0) }
      else b2
    exec (.wrCtrl v) s = .next { s with block := b3, rdata := 0 }) ∧
  (∀ (v : Word) (s : State), v &&& 0x7 = 0 → exec (.wrCtrl v) s = .next { s with rdata := 0 }) ∧
  (∀ s : State, ∃ t, exec (.wrCtrl 0x3) s = .next t ∧ t.block.err_cmd = s.block.err_cmd ∧
    t.block.cfg_w = s.block.dim_w ∧ t.block.cfg_h = s.block.dim_h ∧ t.block.busy = !t.block.done) ∧
  (∀ s : State, s.block.busy = true ∨ s.block.out_full = true →
    exec (.wrCtrl 0x5) s =
      .next { s with block := { s.block with err_ovf := false, err_udf := false, err_cmd := true }, rdata := 0 }) ∧
  (∀ s : State, ∃ t, exec (.wrCtrl 0x7) s = .next t ∧ t.block.noErrors ∧
    t.block.cfg_w = s.block.dim_w ∧ t.block.cfg_h = s.block.dim_h) ∧
  ((runHost [.wrDim 0x00010008, .wrCtrl 0x1, .rdStatus] State.reset).map Prod.snd = some [0, 0, 0x00000005])

/-- 41_control_and_config.md R131: ABORT clears the datapath in every state and keeps DIM, the latched dimensions and
the error flags; BUSY, DONE, IN_READY and OUT_VALID become 0; idle, it only clears DONE, POS and COUNT (and the byte that
no read can see); it is the only transaction that ends a frame short of pixels; the rule's example. -/
def Obligations.AbortClearsTheDatapath : Prop :=
  (∀ (v : Word) (s : State), v[1] = true → v[0] = false → v[2] = false →
    exec (.wrCtrl v) s = .next { s with
      block := { s.block with
        busy := false, done := false, acc := 0, nbits := 0, x := 0, y := 0, out_data := 0, out_full := false,
        count := 0 },
      rdata := 0 }) ∧
  (∀ s : State, ∃ t r, runHost [.wrCtrl 0x2, .rdStatus, .rdPos, .rdCount] s = some (t, [0, r, 0, 0]) ∧
    r[0] = false ∧ r[1] = false ∧ r[2] = false ∧ r[3] = false) ∧
  (∀ s : State, s.block.Inv → s.block.busy = false → s.block.out_full = false →
    exec (.wrCtrl 0x2) s = .next { s with
      block := { s.block with done := false, x := 0, y := 0, count := 0, out_data := 0 }, rdata := 0 }) ∧
  (∀ (i : Instr) (s t : State), exec i s = .next t → s.block.busy = true → t.block.busy = false →
    t.block.done = false → ∃ v, i = .wrCtrl v ∧ v[1] = true)

/-- 41_control_and_config.md R132: CLR_ERR clears the three error flags together and changes nothing else; the rule's
example. -/
def Obligations.ClrErrClearsTheThreeFlags : Prop :=
  (∀ (v : Word) (s : State), v[2] = true → v[0] = false → v[1] = false →
    exec (.wrCtrl v) s =
      .next { s with block := { s.block with err_ovf := false, err_udf := false, err_cmd := false }, rdata := 0 }) ∧
  (∀ s : State, exec .rdStatus s = .next { s with rdata := 0x00000050 } →
    ∃ t, runHost [.wrCtrl 0x4, .rdStatus] s = some (t, [0, 0]))

/-- 41_control_and_config.md R133: START is refused with ERR_CMD while a frame runs or a byte waits; an accepted one
latches DIM, clears the datapath and runs, or is done at once for a zero area; the rule's example. -/
def Obligations.StartLatchesDimensionsOrIsRefused : Prop :=
  (∀ (v : Word) (s : State), v[0] = true → v[1] = false → v[2] = false →
    (s.block.busy = true ∨ s.block.out_full = true →
      exec (.wrCtrl v) s = .next { s with block := { s.block with err_cmd := true }, rdata := 0 }) ∧
    (s.block.busy = false → s.block.out_full = false → s.block.dim_w = 0 ∨ s.block.dim_h = 0 →
      exec (.wrCtrl v) s = .next { s with
        block := { s.block with
          cfg_w := s.block.dim_w, cfg_h := s.block.dim_h, acc := 0, nbits := 0, x := 0, y := 0, count := 0,
          busy := false, done := true },
        rdata := 0 }) ∧
    (s.block.busy = false → s.block.out_full = false → s.block.dim_w ≠ 0 → s.block.dim_h ≠ 0 →
      exec (.wrCtrl v) s = .next { s with
        block := { s.block with
          cfg_w := s.block.dim_w, cfg_h := s.block.dim_h, acc := 0, nbits := 0, x := 0, y := 0, count := 0,
          busy := true, done := false },
        rdata := 0 })) ∧
  ((runHost [.wrDim 0x00000005, .wrCtrl 0x1, .rdStatus, .rdCount] State.reset).map Prod.snd =
    some [0, 0, 0x00000002, 0])

/-- 70_reset_and_hazards.md R201: writing CTRL = 0x6 (ABORT and CLR_ERR) leaves every register reading as after
hardware reset, except DIM and LEN; ABORT alone keeps DIM, the latched dimensions and the error flags. -/
def Obligations.SoftResetLeavesRegistersAsAfterReset : Prop :=
  (∀ s : State, ∃ t, exec (.wrCtrl 0x6) s = .next t ∧
    (∀ r : Reg, r ≠ .dim → r ≠ .len → ∃ u, exec (readOf r) t = .next u ∧ u.rdata = 0) ∧
    t.block.dim_w = s.block.dim_w ∧ t.block.dim_h = s.block.dim_h) ∧
  (∀ s : State, ∃ t, exec (.wrCtrl 0x2) s = .next t ∧
    t.block.dim_w = s.block.dim_w ∧ t.block.dim_h = s.block.dim_h ∧
    t.block.cfg_w = s.block.cfg_w ∧ t.block.cfg_h = s.block.cfg_h ∧
    t.block.err_ovf = s.block.err_ovf ∧ t.block.err_udf = s.block.err_udf ∧ t.block.err_cmd = s.block.err_cmd)

/-! ### Pixel input and byte output -/

/-- 42_pixel_and_output.md R160: a pixel is taken by `pixel_step` while IN_READY = 1, else dropped with ERR_OVF and
nothing else changes; the rule's corner cases and example. -/
def Obligations.WrPixelAcceptedOrDropped : Prop :=
  (∀ v : Word, decode (serialise 0xB v) = .wrPixel v) ∧
  (∀ (v : Word) (s : State), s.block.busy = true → s.block.out_full = false →
    exec (.wrPixel v) s = .next { s with block := pixelStep .lsbLiteral v s.block, rdata := 0 } ∧
    (pixelStep .lsbLiteral v s.block).err_ovf = s.block.err_ovf ∧
    (pixelStep .lsbLiteral v s.block).err_udf = s.block.err_udf ∧
    (pixelStep .lsbLiteral v s.block).err_cmd = s.block.err_cmd) ∧
  (∀ (v : Word) (s : State), s.block.busy = false ∨ s.block.out_full = true →
    exec (.wrPixel v) s = .next { s with block := { s.block with err_ovf := true }, rdata := 0 }) ∧
  (∀ (t : TailAlign) (v : Word) (b : Block), b.Inv → b.busy = true → b.out_full = false → b.cfg_w = 1 →
    (pixelStep t v b).out_full = true ∧
    (pixelStep t v b).out_data =
      if pixelBit v then (match t with | .lsbLiteral => 0x01 | .msbPadded => 0x80) else 0x00) ∧
  pixelBit 0x00000000 = true ∧ pixelBit 0xFF000000 = true ∧
  ((runHost ([.wrDim 0x00010008, .wrCtrl 0x1] ++ List.replicate 8 (.wrPixel 0xFF000000) ++ [.rdStatus, .rdOut])
    State.reset).map Prod.snd = some (List.replicate 10 0 ++ [0x0000000A, 0x000001FF]))

/-- 40_encoder_datapath.md R110, with R104, R105, R107, R108, R109: the whole effect of one accepted pixel, field by
field and over the natural numbers, under this hardware's LSB_LITERAL (R106). The invariants of R40 rule out the states,
reached by no run, where a stored width would overflow. -/
def Obligations.AcceptedPixelEffect : Prop :=
  (∀ (v : Word) (s : State), s.block.Inv → s.block.busy = true → s.block.out_full = false →
    let b := s.block
    let luminance := 30 * (v.toNat % 256) + 59 * (v.toNat / 256 % 256) + 11 * (v.toNat / 65536 % 256)
    let a1 := 2 * b.acc.toNat + if luminance < 12800 then 1 else 0
    let n1 := b.nbits.toNat + 1
    let last : Prop := b.x.toNat + 1 = b.cfg_w.toNat
    let flush : Prop := n1 = 8 ∨ last
    let frameEnd : Prop := last ∧ b.y.toNat + 1 = b.cfg_h.toNat
    ∃ t : State, exec (.wrPixel v) s = .next t ∧ t.rdata = 0 ∧ t.pending = s.pending ∧
      a1 < 256 ∧
      (flush → t.block.out_data.toNat = a1 ∧ t.block.out_full = true ∧ t.block.count.toNat = b.count.toNat + 1 ∧
        t.block.acc = 0 ∧ t.block.nbits = 0) ∧
      (¬flush → t.block.out_data = b.out_data ∧ t.block.out_full = false ∧ t.block.count = b.count ∧
        t.block.acc.toNat = a1 ∧ t.block.nbits.toNat = n1) ∧
      (last → t.block.x = 0 ∧ t.block.y.toNat = b.y.toNat + 1) ∧
      (¬last → t.block.x.toNat = b.x.toNat + 1 ∧ t.block.y = b.y) ∧
      (frameEnd → t.block.busy = false ∧ t.block.done = true) ∧
      (¬frameEnd → t.block.busy = true ∧ t.block.done = b.done) ∧
      t.block.dim_w = b.dim_w ∧ t.block.dim_h = b.dim_h ∧ t.block.cfg_w = b.cfg_w ∧ t.block.cfg_h = b.cfg_h ∧
      t.block.err_ovf = b.err_ovf ∧ t.block.err_udf = b.err_udf ∧ t.block.err_cmd = b.err_cmd) ∧
  (∀ s : State, s.block.busy = true → s.block.out_full = false → s.block.cfg_w = 8 → s.block.cfg_h = 1 →
    s.block.acc = 0x7F → s.block.nbits = 7 → s.block.x = 7 → s.block.y = 0 →
    ∃ t, exec (.wrPixel 0xFF000000) s = .next t ∧ t.block.out_full = true ∧ t.block.out_data = 0xFF ∧
      t.block.x = 0 ∧ t.block.y = 1 ∧ t.block.busy = false ∧ t.block.done = true)

/-- 40_encoder_datapath.md R105: an accepted pixel flushes if and only if it is the eighth of its byte or the last of
its row, and then exactly one byte. By R203 that is column `x` with `x mod 8 = 7` or `x = W - 1`. -/
def Obligations.FlushExactlyAtByteOrRowEnd : Prop :=
  ∀ (v : Word) (s : State), s.block.Inv → s.block.busy = true → s.block.out_full = false →
    1 ≤ s.block.cfg_w.toNat ∧
    ∃ t, exec (.wrPixel v) s = .next t ∧
      (t.block.out_full = true ↔ s.block.nbits.toNat + 1 = 8 ∨ s.block.x.toNat = s.block.cfg_w.toNat - 1) ∧
      (t.block.out_full = true ↔ s.block.x.toNat % 8 = 7 ∨ s.block.x.toNat = s.block.cfg_w.toNat - 1) ∧
      t.block.count.toNat = s.block.count.toNat + (if t.block.out_full = true then 1 else 0)

/-- 42_pixel_and_output.md R162: a waiting byte is returned with VALID and popped, `rdata` being computed before the
pop; an empty OUT reads 0 and sets ERR_UDF; the rule's corner cases and example. -/
def Obligations.RdOutPopsOrSetsErrUdf : Prop :=
  (∀ v : Word, decode (serialise 0x4 v) = .rdOut) ∧
  (∀ s : State, s.block.out_full = true → ∃ r : Word, r.toNat = 256 + s.block.out_data.toNat ∧
    exec .rdOut s = .next { s with block := { s.block with out_full := false }, rdata := r } ∧
    runHost [.rdOut, .rdOut] s =
      some ({ s with block := { s.block with out_full := false, err_udf := true }, rdata := 0 }, [r, 0])) ∧
  (∀ s : State, s.block.out_full = false →
    exec .rdOut s = .next { s with block := { s.block with err_udf := true }, rdata := 0 }) ∧
  (∀ s : State, s.block.out_full = true → s.block.out_data = 0x00 →
    ∃ t, exec .rdOut s = .next t ∧ t.rdata = 0x00000100) ∧
  (∀ s : State, s.block.out_full = true → s.block.out_data = 0xFF →
    ∃ t r, runHost [.rdOut, .rdStatus] s = some (t, [0x000001FF, r]) ∧ r[3] = false ∧
      r[2] = s.block.busy)

/-! ### The datapath -/

/-- 40_encoder_datapath.md R100: the channels of a pixel word; alpha is read by no rule, so two pixel words that differ
only in it give the same bit and do the same in every state. -/
def Obligations.AlphaNeverMatters : Prop :=
  (∀ p : Word, (pixelR p).toNat = p.toNat % 2 ^ 8 ∧ (pixelG p).toNat = p.toNat / 2 ^ 8 % 2 ^ 8 ∧
    (pixelB p).toNat = p.toNat / 2 ^ 16 % 2 ^ 8) ∧
  (∀ (p q : Word) (s : State), p.toNat % 2 ^ 24 = q.toNat % 2 ^ 24 →
    pixelBit p = pixelBit q ∧ exec (.wrPixel p) s = exec (.wrPixel q) s)

/-- 40_encoder_datapath.md R101, R102: the luminance sum is exact and in 0..25500; the bit is 1 exactly when the
source's `0.30*R + 0.59*G + 0.11*B` is below 128 over the rationals; raising a channel never turns a 0 into a 1; and the
byte of a 1×1 frame of that pixel says so. -/
def Obligations.ThresholdIsExact : Prop :=
  (∀ r g b : Byte, luma r g b = 30 * r.toNat + 59 * g.toNat + 11 * b.toNat ∧ luma r g b ≤ 25500) ∧
  (∀ p : Word, pixelBit p = true ↔
    (30 / 100 : ℚ) * (p.toNat % 256 : ℕ) + (59 / 100 : ℚ) * (p.toNat / 256 % 256 : ℕ) +
      (11 / 100 : ℚ) * (p.toNat / 65536 % 256 : ℕ) < 128) ∧
  (∀ p q : Word, p.toNat % 256 ≤ q.toNat % 256 → p.toNat / 256 % 256 ≤ q.toNat / 256 % 256 →
    p.toNat / 65536 % 256 ≤ q.toNat / 65536 % 256 → pixelBit q = true → pixelBit p = true) ∧
  (∀ p : Word, (runHost [.wrDim 0x00010001, .wrCtrl 0x1, .wrPixel p, .rdOut] State.reset).map Prod.snd =
    some [0, 0, 0, if pixelBit p then 0x00000101 else 0x00000100]) ∧
  pixelBit (pixelWord 0 175 225 255) = false ∧ pixelBit (pixelWord 0 197 107 255) = false

/-- 40_encoder_datapath.md R104: shifting the next bit in doubles the accumulator and adds the bit, and never discards
a 1 bit. -/
def Obligations.AccumulateKeepsEveryBit : Prop :=
  ∀ (acc : Byte) (bit : Bool) (n : Nat), n ≤ 7 → acc.toNat < 2 ^ n →
    (accumulate acc bit).toNat = 2 * acc.toNat + bit.toNat ∧ (accumulate acc bit).toNat < 2 ^ (n + 1)

/-- 40_encoder_datapath.md R106: the byte flushed for `n` bits under each setting, where they agree, this hardware's
setting, and the rule's example. -/
def Obligations.TailByteValue : Prop :=
  Config.tailAlign = .lsbLiteral ∧
  (∀ (a : Byte) (n : Nat), 1 ≤ n → n ≤ 8 → a.toNat < 2 ^ n →
    tail .lsbLiteral a n = a ∧ (tail .msbPadded a n).toNat = a.toNat * 2 ^ (8 - n) ∧
    (n = 8 → tail .msbPadded a n = a)) ∧
  tail .lsbLiteral 0b101 3 = 0x05 ∧ tail .msbPadded 0b101 3 = 0xA0

/-! ### Whole-machine rules -/

/-- 20_memory.md R55: only a read of OUT has a side effect; every other read leaves the record as it is and can be
repeated; a write of DIM is idempotent, a write of a read-only register has no effect, and CTRL and PIXEL writes are
not idempotent. -/
def Obligations.OnlyReadsOfOutHaveASideEffect : Prop :=
  (∀ (r : Reg) (s : State), r ≠ .out → ∃ v : Word, exec (readOf r) s = .next { s with rdata := v } ∧
    exec (readOf r) { s with rdata := v } = .next { s with rdata := v }) ∧
  (∀ s : State, s.block.out_full = true ∨ s.block.err_udf = false →
    ∃ t, exec .rdOut s = .next t ∧ t.block ≠ s.block) ∧
  (∀ (v : Word) (s : State), ∃ t, exec (.wrDim v) s = .next t ∧ exec (.wrDim v) t = .next t) ∧
  (∀ (r : Reg) (v : Word) (s : State), r = .status ∨ r = .out ∨ r = .len ∨ r = .pos ∨ r = .count →
    ∃ t, exec (writeOf r v) s = .next t ∧ t.block = s.block) ∧
  (∃ s t u, exec (.wrCtrl 0x1) s = .next t ∧ exec (.wrCtrl 0x1) t = .next u ∧ u.block ≠ t.block) ∧
  (∃ (p : Word) (s t u : State),
    exec (.wrPixel p) s = .next t ∧ exec (.wrPixel p) t = .next u ∧ u.block ≠ t.block)

/-- 60_exceptions.md R181: each error flag rises exactly on its own cause, no other transaction raises it, and its code
is its STATUS bit. -/
def Obligations.ErrorFlagsRiseOnTheirCauses : Prop :=
  (∀ (i : Instr) (s t : State), exec i s = .next t →
    (s.block.err_ovf = false →
      (t.block.err_ovf = true ↔ (∃ v, i = .wrPixel v) ∧ ¬(s.block.busy = true ∧ s.block.out_full = false))) ∧
    (s.block.err_udf = false → (t.block.err_udf = true ↔ i = .rdOut ∧ s.block.out_full = false)) ∧
    (s.block.err_cmd = false →
      (t.block.err_cmd = true ↔ ∃ v, i = .wrCtrl v ∧ v[0] = true ∧ v[1] = false ∧
        (s.block.busy = true ∨ s.block.out_full = true)))) ∧
  (∀ (e : ErrorCause) (s : State), ∃ t, exec .rdStatus s = .next t ∧ t.rdata.getLsbD e.code = errorFlag e s.block) ∧
  ErrorCause.code .ovf = 4 ∧ ErrorCause.code .udf = 5 ∧ ErrorCause.code .cmd = 6

/-- 60_exceptions.md R182: the offending transaction has no effect but its flag (a refused START in a write that also
clears the errors: no effect but the clearing and its flag), and a flag that is already 1 stays 1. -/
def Obligations.ErrorsArePrecise : Prop :=
  (∀ (e : ErrorCause) (i : Instr) (s t : State), exec i s = .next t →
    errorFlag e s.block = false → errorFlag e t.block = true →
    (isCtrlWrite i = false → t.block = raise e s.block) ∧
    (∀ v, i = .wrCtrl v → e = .cmd ∧
      t.block = raise .cmd (if v[2] then clrErr s.block else s.block))) ∧
  (∀ s : State,
    (s.block.err_ovf = true → s.block.busy = false ∨ s.block.out_full = true → ∀ v,
      exec (.wrPixel v) s = .next { s with rdata := 0 }) ∧
    (s.block.err_udf = true → s.block.out_full = false → exec .rdOut s = .next { s with rdata := 0 }) ∧
    (s.block.err_cmd = true → s.block.busy = true ∨ s.block.out_full = true →
      exec (.wrCtrl 0x1) s = .next { s with rdata := 0 }))

/-- 60_exceptions.md R183: only CTRL.CLR_ERR, which clears all three flags together, and reset clear an error flag. -/
def Obligations.OnlyClrErrAndResetClearErrors : Prop :=
  (∀ (e : ErrorCause) (s t : State), step s = .next t → errorFlag e s.block = true → errorFlag e t.block = false →
    ∃ c rest, s.pending = c :: rest ∧
      (c.rst = true ∨ c.sel = true ∧ ∃ v, decode c.word = .wrCtrl v ∧ v[2] = true)) ∧
  (∀ (v : Word) (s : State), v[2] = true → ∃ t, exec (.wrCtrl v) s = .next t ∧
    t.block.err_ovf = false ∧ t.block.err_udf = false ∧
    (t.block.err_cmd = true → v[0] = true ∧ v[1] = false ∧
      (s.block.busy = true ∨ s.block.out_full = true)))

/-- 60_exceptions.md R184: a transaction raises at most one error; a write of 0x5 whose START is refused ends with
ERR_CMD = 1; a write of 0x3 never raises ERR_CMD. -/
def Obligations.AtMostOneErrorPerTransaction : Prop :=
  (∀ (d e : ErrorCause) (i : Instr) (s t : State), exec i s = .next t →
    errorFlag d s.block = false → errorFlag d t.block = true →
    errorFlag e s.block = false → errorFlag e t.block = true → d = e) ∧
  (∀ s : State, s.block.busy = true ∨ s.block.out_full = true →
    ∃ t, exec (.wrCtrl 0x5) s = .next t ∧ t.block.err_cmd = true) ∧
  (∀ s : State, ∃ t, exec (.wrCtrl 0x3) s = .next t ∧ t.block.err_cmd = s.block.err_cmd)

/-- 10_state.md R22 to R30: which transactions may change each of the sixteen fields of the record: the dimensions, the
latched dimensions, the position, accumulator and count, `busy` and `done`, the holding register and the three error
flags. An accepted START is a write of CTRL with bit 0 that aborts first or finds the block idle and drained. -/
def Obligations.OnlyTheNamedTransactionsWriteEachField : Prop :=
  ∀ (i : Instr) (s t : State), exec i s = .next t →
    (t.block.dim_w ≠ s.block.dim_w ∨ t.block.dim_h ≠ s.block.dim_h → ∃ v, i = .wrDim v) ∧
    (t.block.cfg_w ≠ s.block.cfg_w ∨ t.block.cfg_h ≠ s.block.cfg_h →
      (∃ v, i = .wrCtrl v ∧ v[0] = true ∧
        (v[1] = true ∨ s.block.busy = false ∧ s.block.out_full = false)) ∧
      t.block.cfg_w = s.block.dim_w ∧ t.block.cfg_h = s.block.dim_h) ∧
    (t.block.x ≠ s.block.x ∨ t.block.y ≠ s.block.y ∨ t.block.acc ≠ s.block.acc ∨ t.block.nbits ≠ s.block.nbits ∨
        t.block.count ≠ s.block.count →
      (∃ v, i = .wrPixel v) ∧ s.block.busy = true ∧ s.block.out_full = false ∨
      ∃ v, i = .wrCtrl v ∧
        (v[1] = true ∨ v[0] = true ∧ s.block.busy = false ∧ s.block.out_full = false)) ∧
    (t.block.busy ≠ s.block.busy ∨ t.block.done ≠ s.block.done →
      ((∃ v, i = .wrPixel v) ∧ s.block.busy = true ∧ s.block.out_full = false ∧ t.block.busy = false ∧
        t.block.done = true) ∨
      ∃ v, i = .wrCtrl v ∧
        (v[1] = true ∨ v[0] = true ∧ s.block.busy = false ∧ s.block.out_full = false)) ∧
    (t.block.out_data ≠ s.block.out_data →
      ((∃ v, i = .wrPixel v) ∧ s.block.busy = true ∧ s.block.out_full = false ∧ t.block.out_full = true) ∨
      ∃ v, i = .wrCtrl v ∧ v[1] = true) ∧
    (t.block.out_full = true → s.block.out_full = false →
      (∃ v, i = .wrPixel v) ∧ t.block.count = s.block.count + 1) ∧
    (t.block.out_full = false → s.block.out_full = true →
      i = .rdOut ∨ ∃ v, i = .wrCtrl v ∧ v[1] = true) ∧
    (t.block.err_ovf ≠ s.block.err_ovf →
      ((∃ v, i = .wrPixel v) ∧ ¬(s.block.busy = true ∧ s.block.out_full = false) ∧ t.block.err_ovf = true) ∨
      ∃ v, i = .wrCtrl v ∧ v[2] = true) ∧
    (t.block.err_udf ≠ s.block.err_udf →
      (i = .rdOut ∧ s.block.out_full = false ∧ t.block.err_udf = true) ∨ ∃ v, i = .wrCtrl v ∧ v[2] = true) ∧
    (t.block.err_cmd ≠ s.block.err_cmd →
      ∃ v, i = .wrCtrl v ∧
        (v[2] = true ∨
          v[0] = true ∧ v[1] = false ∧ (s.block.busy = true ∨ s.block.out_full = true) ∧ t.block.err_cmd = true))

/-- 10_state.md R24: when `busy` and `done` rise and fall. -/
def Obligations.BusyAndDoneChangeOnlyAsStated : Prop :=
  ∀ (i : Instr) (s t : State), exec i s = .next t →
    (s.block.busy = false → t.block.busy = true →
      (∃ v, i = .wrCtrl v ∧ v[0] = true) ∧ 1 ≤ t.block.cfg_w.toNat ∧ 1 ≤ t.block.cfg_h.toNat) ∧
    (s.block.busy = true → t.block.busy = false →
      ((∃ v, i = .wrPixel v) ∧ t.block.done = true ∧ t.block.y = t.block.cfg_h ∧ t.block.x = 0) ∨
      ∃ v, i = .wrCtrl v ∧ v[1] = true) ∧
    (s.block.done = false → t.block.done = true →
      ((∃ v, i = .wrPixel v) ∧ s.block.busy = true ∧ t.block.busy = false ∧ t.block.y = t.block.cfg_h) ∨
      ((∃ v, i = .wrCtrl v ∧ v[0] = true) ∧ (t.block.cfg_w = 0 ∨ t.block.cfg_h = 0))) ∧
    (s.block.done = true → t.block.done = false →
      ∃ v, i = .wrCtrl v ∧ (v[0] = true ∨ v[1] = true))

/-- The invariants of 10_state.md R40 hold after reset. -/
def Obligations.InvariantsHoldAtReset : Prop := State.reset.block.Inv

/-- 10_state.md R40: every step, a hardware reset among them, keeps the nine invariants, from every state that meets
them. -/
def Obligations.EveryStepKeepsTheInvariants : Prop :=
  ∀ s t : State, s.block.Inv → step s = .next t → t.block.Inv

/-- 20_memory.md R60: a running frame never sees DIM. Two states that differ only in DIM return the same value and stay
equal but for DIM, for every transaction but a START and the reads of DIM and LEN. -/
def Obligations.RunningFrameNeverSeesDim : Prop :=
  ∀ (i : Instr) (a b : State), a.block.sameButDim b.block →
    (∀ v, i = .wrCtrl v → v[0] = false) → i ≠ .rdDim → i ≠ .rdLen →
    ∃ t u, exec i a = .next t ∧ exec i b = .next u ∧ t.rdata = u.rdata ∧ t.block.sameButDim u.block

/-- 40_encoder_datapath.md R114: nothing of an earlier frame is seen after an accepted START. Two states with the same
DIM and the same error flags, whatever else they hold, return the same values to every sequence of transactions that
begins with it. -/
def Obligations.NothingOfAnEarlierFrameIsSeen : Prop :=
  ∀ (a b : State) (v : Word) (is : List Instr), v[0] = true →
    (v[1] = true ∨ a.block.busy = false ∧ a.block.out_full = false) →
    (v[1] = true ∨ b.block.busy = false ∧ b.block.out_full = false) →
    a.block.dim_w = b.block.dim_w → a.block.dim_h = b.block.dim_h →
    a.block.err_ovf = b.block.err_ovf → a.block.err_udf = b.block.err_udf → a.block.err_cmd = b.block.err_cmd →
    ∃ t u rs, runHost (.wrCtrl v :: is) a = some (t, rs) ∧ runHost (.wrCtrl v :: is) b = some (u, rs)

/-- 70_reset_and_hazards.md R205: while a frame runs and a byte waits, IN_READY stays 0, a pixel is dropped with ERR_OVF
and a START is refused with ERR_CMD, until OUT is read (or the frame aborted); and IN_READY is never 0 for any other
reason while a frame runs. -/
def Obligations.BackPressureUntilOutIsRead : Prop :=
  (∀ (is : List Instr) (s u : State) (rs : List Word), s.block.busy = true → s.block.out_full = true →
    (∀ i ∈ is, i ≠ .rdOut ∧ ∀ v, i = .wrCtrl v → v[1] = false) → runHost is s = some (u, rs) →
    u.block.busy = true ∧ u.block.out_full = true ∧ u.block.out_data = s.block.out_data ∧
    u.block.x = s.block.x ∧ u.block.y = s.block.y ∧ u.block.count = s.block.count ∧
    (∀ v, exec (.wrPixel v) u = .next { u with block := { u.block with err_ovf := true }, rdata := 0 })) ∧
  (∀ s : State, s.block.done = true → s.block.out_full = true →
    exec (.wrCtrl 0x1) s = .next { s with block := { s.block with err_cmd := true }, rdata := 0 }) ∧
  (∀ s : State, s.block.busy = true →
    ∃ t, exec .rdStatus s = .next t ∧ (t.rdata[2] = false ↔ s.block.out_full = true))

/-- 70_reset_and_hazards.md R207: a frame has ended when DONE = 1 and OUT_VALID = 0; then COUNT is the frame's byte
count and a new START is accepted. With the last byte still waiting it is refused. -/
def Obligations.EndedFrameIsCompleteAndRestartable : Prop :=
  (∀ (v : Word) (s : State), s.block.Inv → s.block.frameEnded → v[0] = true →
    s.block.count.toNat = s.block.cfg_h.toNat * ((s.block.cfg_w.toNat + 7) / 8) ∧
    ∃ t, exec (.wrCtrl v) s = .next t ∧ t.block.cfg_w = s.block.dim_w ∧ t.block.cfg_h = s.block.dim_h ∧
      t.block.count = 0 ∧ (s.block.err_cmd = false → t.block.err_cmd = false)) ∧
  (∀ s : State, s.block.Inv → s.block.done = true → s.block.out_full = true →
    1 ≤ s.block.count.toNat ∧ ∃ t, exec (.wrCtrl 0x1) s = .next t ∧ t.block.err_cmd = true)

/-! ### Whole frames -/

/-- 40_encoder_datapath.md R113: `length(encode(W, H, P)) = H * ceil(W/8)`, for every width and height and under both
settings. -/
def Obligations.ByteCountLaw : Prop :=
  ∀ (t : TailAlign) (w h : Nat) (ps : List Word), (encodeBytes t w h ps).length = h * ((w + 7) / 8)

/-- 40_encoder_datapath.md R112: the closed form of every output byte, and where each pixel's bit lands. -/
def Obligations.EncodeClosedForm : Prop :=
  ∀ (t : TailAlign) (w h : Nat) (ps : List Word), ps.length = w * h →
    (∀ y c : Nat, y < h → c < (w + 7) / 8 → ∃ byte : Byte,
      (encodeBytes t w h ps)[y * ((w + 7) / 8) + c]? = some byte ∧
      byte.toNat =
        let n := min 8 (w - 8 * c)
        ((List.range n).map fun j =>
          (pixelBit (ps.getD (y * w + (8 * c + j)) 0)).toNat *
            2 ^ (if n = 8 ∨ t = .lsbLiteral then n - 1 - j else 7 - j)).sum) ∧
    (∀ x y : Nat, x < w → y < h → ∃ byte : Byte,
      (encodeBytes t w h ps)[y * ((w + 7) / 8) + x / 8]? = some byte ∧
      byte.getLsbD
        (if min 8 (w - 8 * (x / 8)) = 8 ∨ t = .msbPadded then 7 - x % 8 else min 8 (w - 8 * (x / 8)) - 1 - x % 8) =
        pixelBit (ps.getD (y * w + x) 0))

/-- 40_encoder_datapath.md R114: `encode` depends only on `W`, `H`, the R, G and B values and the setting: not on
alpha. -/
def Obligations.EncodeIgnoresAlpha : Prop :=
  ∀ (t : TailAlign) (w h : Nat) (ps qs : List Word),
    ps.map (fun p => p.toNat % 2 ^ 24) = qs.map (fun q => q.toNat % 2 ^ 24) →
    encodeBytes t w h ps = encodeBytes t w h qs

/-- The datapath refines the reference function, for both tail alignments (40_encoder_datapath.md R106 to R111): from a
fresh frame, the bytes flushed by `pixel_step`, each taken at once, are `encode` of the pixels, and the frame ends. -/
def Obligations.DatapathRefinesEncode : Prop :=
  ∀ (t : TailAlign) (ps : List Word) (b : Block), b.busy = true → b.out_full = false →
    1 ≤ b.cfg_w.toNat → 1 ≤ b.cfg_h.toNat → b.x = 0 → b.y = 0 → b.acc = 0 → b.nbits = 0 → b.count = 0 →
    ps.length = b.cfg_w.toNat * b.cfg_h.toNat →
    (streamPixels t ps b).2 = encodeBytes t b.cfg_w.toNat b.cfg_h.toNat ps ∧
    (streamPixels t ps b).1.done = true ∧ (streamPixels t ps b).1.busy = false ∧
    (streamPixels t ps b).1.count.toNat = b.cfg_h.toNat * ((b.cfg_w.toNat + 7) / 8)

/-- 40_encoder_datapath.md R115 with the host protocol of 70_reset_and_hazards.md R203: from any state that accepts a
START, the protocol reads exactly `encode(W, H, P)`; at the end DONE = 1, OUT_VALID = 0 and COUNT = H * ceil(W/8). One
poll before each pixel is enough (R204, R205), and no error flag changes. The host's wait loop is given `polls` reads
(log entry 12); the statement holds for every number of them from 1 on. -/
def Obligations.StreamingEquivalence : Prop :=
  ∀ (polls : Nat) (w h : Dim) (ps : List Word) (s : State), 1 ≤ polls →
    s.block.busy = false → s.block.out_full = false → ps.length = w.toNat * h.toNat →
    ∃ u bs, sendFrame polls w h ps s = some (u, bs) ∧
      bs = encodeBytes .lsbLiteral w.toNat h.toNat ps ∧
      u.block.done = true ∧ u.block.busy = false ∧ u.block.out_full = false ∧
      u.rdata[1] = true ∧ u.rdata[3] = false ∧
      u.block.count.toNat = h.toNat * ((w.toNat + 7) / 8) ∧
      u.block.err_ovf = s.block.err_ovf ∧ u.block.err_udf = s.block.err_udf ∧ u.block.err_cmd = s.block.err_cmd

/-- The same of ANY host (40_encoder_datapath.md R115; 70_reset_and_hazards.md R206, R207; 92_eei_decisions.md D28): after
an accepted START, whatever transactions follow but a write of CTRL, if no error flag is set at the end then the pixels
written are at most W*H; the frame is done exactly when they are W*H and runs exactly when they are fewer; and the bytes
read, with the byte still waiting, are the first COUNT bytes of `encode` of any whole frame that begins with those pixels.
A complete and drained frame took at least a transaction per pixel and per byte. -/
def Obligations.AnyHostReadsAPrefixOfEncode : Prop :=
  ∀ (s u : State) (v r : Word) (is : List Instr) (rs : List Word), v[0] = true →
    (v[1] = true ∨ s.block.busy = false ∧ s.block.out_full = false) →
    (∀ i ∈ is, isCtrlWrite i = false) → runHost (.wrCtrl v :: is) s = some (u, r :: rs) → u.block.noErrors →
    let w := s.block.dim_w.toNat
    let h := s.block.dim_h.toNat
    (pixelsOf is).length ≤ w * h ∧
    (u.block.done = true ↔ (pixelsOf is).length = w * h) ∧
    (u.block.busy = true ↔ (pixelsOf is).length < w * h) ∧
    (∀ ps : List Word, pixelsOf is <+: ps → ps.length = w * h →
      poppedBytes is rs ++ waitingByte u.block = (encodeBytes .lsbLiteral w h ps).take u.block.count.toNat) ∧
    (u.block.frameEnded →
      poppedBytes is rs = encodeBytes .lsbLiteral w h (pixelsOf is) ∧
      u.block.count.toNat = h * ((w + 7) / 8) ∧ w * h + h * ((w + 7) / 8) ≤ is.length)

/-- 70_reset_and_hazards.md R208: a FrameSet is encoded as successive frames, and each frame's bytes are `encode` of
that frame alone. -/
def Obligations.FrameSequenceEncodesEachFrame : Prop :=
  ∀ (polls : Nat) (w h : Dim) (fs : List (List Word)) (s : State), 1 ≤ polls →
    s.block.busy = false → s.block.out_full = false → (∀ f ∈ fs, f.length = w.toNat * h.toNat) →
    ∃ u, sendFrames polls w h fs s = some (u, fs.map fun f => encodeBytes .lsbLiteral w.toNat h.toNat f)
end

