-- ==== Sys2Proof/Laws/State.lean ====
section
/-! SUPPORT. One lemma per field and update of the state record, all true by rfl and tagged for simp. -/

namespace Sys2Proof.Machine

/-! ### The state around the block -/

@[simp] theorem State.complete_block (s : State) (b : Block) (r : Word) : (s.complete b r).block = b := rfl
@[simp] theorem State.complete_rdata (s : State) (b : Block) (r : Word) : (s.complete b r).rdata = r := rfl
@[simp] theorem State.complete_pending (s : State) (b : Block) (r : Word) : (s.complete b r).pending = s.pending := rfl

@[simp] theorem State.withPending_block (s : State) (cs : List PortCycle) : (s.withPending cs).block = s.block := rfl
@[simp] theorem State.withPending_rdata (s : State) (cs : List PortCycle) : (s.withPending cs).rdata = s.rdata := rfl
@[simp] theorem State.withPending_pending (s : State) (cs : List PortCycle) : (s.withPending cs).pending = cs := rfl

@[simp] theorem State.idle_block (s : State) : (s.idle).block = s.block := rfl
@[simp] theorem State.idle_rdata (s : State) : (s.idle).rdata = 0 := rfl
@[simp] theorem State.idle_pending (s : State) : (s.idle).pending = s.pending := rfl

@[simp] theorem State.hardwareReset_block (s : State) : (s.hardwareReset).block = Block.reset := rfl
@[simp] theorem State.hardwareReset_rdata (s : State) : (s.hardwareReset).rdata = 0 := rfl
@[simp] theorem State.hardwareReset_pending (s : State) : (s.hardwareReset).pending = s.pending := rfl

@[simp] theorem State.read_block (r : Reg) (s : State) : (s.read r).block = s.block := rfl
@[simp] theorem State.read_rdata (r : Reg) (s : State) : (s.read r).rdata = readValue r s.block := rfl
@[simp] theorem State.read_pending (r : Reg) (s : State) : (s.read r).pending = s.pending := rfl

@[simp] theorem State.write_block (b : Block) (s : State) : (s.write b).block = b := rfl
@[simp] theorem State.write_rdata (b : Block) (s : State) : (s.write b).rdata = 0 := rfl
@[simp] theorem State.write_pending (b : Block) (s : State) : (s.write b).pending = s.pending := rfl

/-! ### abort -/

@[simp] theorem abort_dim_w (b : Block) : (abort b).dim_w = b.dim_w := rfl
@[simp] theorem abort_dim_h (b : Block) : (abort b).dim_h = b.dim_h := rfl
@[simp] theorem abort_cfg_w (b : Block) : (abort b).cfg_w = b.cfg_w := rfl
@[simp] theorem abort_cfg_h (b : Block) : (abort b).cfg_h = b.cfg_h := rfl
@[simp] theorem abort_busy (b : Block) : (abort b).busy = false := rfl
@[simp] theorem abort_done (b : Block) : (abort b).done = false := rfl
@[simp] theorem abort_acc (b : Block) : (abort b).acc = 0 := rfl
@[simp] theorem abort_nbits (b : Block) : (abort b).nbits = 0 := rfl
@[simp] theorem abort_x (b : Block) : (abort b).x = 0 := rfl
@[simp] theorem abort_y (b : Block) : (abort b).y = 0 := rfl
@[simp] theorem abort_out_data (b : Block) : (abort b).out_data = 0 := rfl
@[simp] theorem abort_out_full (b : Block) : (abort b).out_full = false := rfl
@[simp] theorem abort_count (b : Block) : (abort b).count = 0 := rfl
@[simp] theorem abort_err_ovf (b : Block) : (abort b).err_ovf = b.err_ovf := rfl
@[simp] theorem abort_err_udf (b : Block) : (abort b).err_udf = b.err_udf := rfl
@[simp] theorem abort_err_cmd (b : Block) : (abort b).err_cmd = b.err_cmd := rfl

/-! ### clrErr -/

@[simp] theorem clrErr_dim_w (b : Block) : (clrErr b).dim_w = b.dim_w := rfl
@[simp] theorem clrErr_dim_h (b : Block) : (clrErr b).dim_h = b.dim_h := rfl
@[simp] theorem clrErr_cfg_w (b : Block) : (clrErr b).cfg_w = b.cfg_w := rfl
@[simp] theorem clrErr_cfg_h (b : Block) : (clrErr b).cfg_h = b.cfg_h := rfl
@[simp] theorem clrErr_busy (b : Block) : (clrErr b).busy = b.busy := rfl
@[simp] theorem clrErr_done (b : Block) : (clrErr b).done = b.done := rfl
@[simp] theorem clrErr_acc (b : Block) : (clrErr b).acc = b.acc := rfl
@[simp] theorem clrErr_nbits (b : Block) : (clrErr b).nbits = b.nbits := rfl
@[simp] theorem clrErr_x (b : Block) : (clrErr b).x = b.x := rfl
@[simp] theorem clrErr_y (b : Block) : (clrErr b).y = b.y := rfl
@[simp] theorem clrErr_out_data (b : Block) : (clrErr b).out_data = b.out_data := rfl
@[simp] theorem clrErr_out_full (b : Block) : (clrErr b).out_full = b.out_full := rfl
@[simp] theorem clrErr_count (b : Block) : (clrErr b).count = b.count := rfl
@[simp] theorem clrErr_err_ovf (b : Block) : (clrErr b).err_ovf = false := rfl
@[simp] theorem clrErr_err_udf (b : Block) : (clrErr b).err_udf = false := rfl
@[simp] theorem clrErr_err_cmd (b : Block) : (clrErr b).err_cmd = false := rfl

/-! ### startFrame -/

@[simp] theorem startFrame_dim_w (b : Block) : (startFrame b).dim_w = b.dim_w := rfl
@[simp] theorem startFrame_dim_h (b : Block) : (startFrame b).dim_h = b.dim_h := rfl
@[simp] theorem startFrame_cfg_w (b : Block) : (startFrame b).cfg_w = b.dim_w := rfl
@[simp] theorem startFrame_cfg_h (b : Block) : (startFrame b).cfg_h = b.dim_h := rfl
@[simp] theorem startFrame_busy (b : Block) : (startFrame b).busy = (!zeroArea b) := rfl
@[simp] theorem startFrame_done (b : Block) : (startFrame b).done = zeroArea b := rfl
@[simp] theorem startFrame_acc (b : Block) : (startFrame b).acc = 0 := rfl
@[simp] theorem startFrame_nbits (b : Block) : (startFrame b).nbits = 0 := rfl
@[simp] theorem startFrame_x (b : Block) : (startFrame b).x = 0 := rfl
@[simp] theorem startFrame_y (b : Block) : (startFrame b).y = 0 := rfl
@[simp] theorem startFrame_out_data (b : Block) : (startFrame b).out_data = b.out_data := rfl
@[simp] theorem startFrame_out_full (b : Block) : (startFrame b).out_full = b.out_full := rfl
@[simp] theorem startFrame_count (b : Block) : (startFrame b).count = 0 := rfl
@[simp] theorem startFrame_err_ovf (b : Block) : (startFrame b).err_ovf = b.err_ovf := rfl
@[simp] theorem startFrame_err_udf (b : Block) : (startFrame b).err_udf = b.err_udf := rfl
@[simp] theorem startFrame_err_cmd (b : Block) : (startFrame b).err_cmd = b.err_cmd := rfl

/-! ### writeDim -/

@[simp] theorem writeDim_dim_w (v : Word) (b : Block) : (writeDim v b).dim_w = dimWidth v := rfl
@[simp] theorem writeDim_dim_h (v : Word) (b : Block) : (writeDim v b).dim_h = dimHeight v := rfl
@[simp] theorem writeDim_cfg_w (v : Word) (b : Block) : (writeDim v b).cfg_w = b.cfg_w := rfl
@[simp] theorem writeDim_cfg_h (v : Word) (b : Block) : (writeDim v b).cfg_h = b.cfg_h := rfl
@[simp] theorem writeDim_busy (v : Word) (b : Block) : (writeDim v b).busy = b.busy := rfl
@[simp] theorem writeDim_done (v : Word) (b : Block) : (writeDim v b).done = b.done := rfl
@[simp] theorem writeDim_acc (v : Word) (b : Block) : (writeDim v b).acc = b.acc := rfl
@[simp] theorem writeDim_nbits (v : Word) (b : Block) : (writeDim v b).nbits = b.nbits := rfl
@[simp] theorem writeDim_x (v : Word) (b : Block) : (writeDim v b).x = b.x := rfl
@[simp] theorem writeDim_y (v : Word) (b : Block) : (writeDim v b).y = b.y := rfl
@[simp] theorem writeDim_out_data (v : Word) (b : Block) : (writeDim v b).out_data = b.out_data := rfl
@[simp] theorem writeDim_out_full (v : Word) (b : Block) : (writeDim v b).out_full = b.out_full := rfl
@[simp] theorem writeDim_count (v : Word) (b : Block) : (writeDim v b).count = b.count := rfl
@[simp] theorem writeDim_err_ovf (v : Word) (b : Block) : (writeDim v b).err_ovf = b.err_ovf := rfl
@[simp] theorem writeDim_err_udf (v : Word) (b : Block) : (writeDim v b).err_udf = b.err_udf := rfl
@[simp] theorem writeDim_err_cmd (v : Word) (b : Block) : (writeDim v b).err_cmd = b.err_cmd := rfl

/-! ### flushByte -/

@[simp] theorem flushByte_dim_w (byte : Byte) (b : Block) : (flushByte byte b).dim_w = b.dim_w := rfl
@[simp] theorem flushByte_dim_h (byte : Byte) (b : Block) : (flushByte byte b).dim_h = b.dim_h := rfl
@[simp] theorem flushByte_cfg_w (byte : Byte) (b : Block) : (flushByte byte b).cfg_w = b.cfg_w := rfl
@[simp] theorem flushByte_cfg_h (byte : Byte) (b : Block) : (flushByte byte b).cfg_h = b.cfg_h := rfl
@[simp] theorem flushByte_busy (byte : Byte) (b : Block) : (flushByte byte b).busy = b.busy := rfl
@[simp] theorem flushByte_done (byte : Byte) (b : Block) : (flushByte byte b).done = b.done := rfl
@[simp] theorem flushByte_acc (byte : Byte) (b : Block) : (flushByte byte b).acc = 0 := rfl
@[simp] theorem flushByte_nbits (byte : Byte) (b : Block) : (flushByte byte b).nbits = 0 := rfl
@[simp] theorem flushByte_x (byte : Byte) (b : Block) : (flushByte byte b).x = b.x := rfl
@[simp] theorem flushByte_y (byte : Byte) (b : Block) : (flushByte byte b).y = b.y := rfl
@[simp] theorem flushByte_out_data (byte : Byte) (b : Block) : (flushByte byte b).out_data = byte := rfl
@[simp] theorem flushByte_out_full (byte : Byte) (b : Block) : (flushByte byte b).out_full = true := rfl
@[simp] theorem flushByte_count (byte : Byte) (b : Block) : (flushByte byte b).count = b.count + 1 := rfl
@[simp] theorem flushByte_err_ovf (byte : Byte) (b : Block) : (flushByte byte b).err_ovf = b.err_ovf := rfl
@[simp] theorem flushByte_err_udf (byte : Byte) (b : Block) : (flushByte byte b).err_udf = b.err_udf := rfl
@[simp] theorem flushByte_err_cmd (byte : Byte) (b : Block) : (flushByte byte b).err_cmd = b.err_cmd := rfl

/-! ### holdBits -/

@[simp] theorem holdBits_dim_w (a : Byte) (n : Nat) (b : Block) : (holdBits a n b).dim_w = b.dim_w := rfl
@[simp] theorem holdBits_dim_h (a : Byte) (n : Nat) (b : Block) : (holdBits a n b).dim_h = b.dim_h := rfl
@[simp] theorem holdBits_cfg_w (a : Byte) (n : Nat) (b : Block) : (holdBits a n b).cfg_w = b.cfg_w := rfl
@[simp] theorem holdBits_cfg_h (a : Byte) (n : Nat) (b : Block) : (holdBits a n b).cfg_h = b.cfg_h := rfl
@[simp] theorem holdBits_busy (a : Byte) (n : Nat) (b : Block) : (holdBits a n b).busy = b.busy := rfl
@[simp] theorem holdBits_done (a : Byte) (n : Nat) (b : Block) : (holdBits a n b).done = b.done := rfl
@[simp] theorem holdBits_acc (a : Byte) (n : Nat) (b : Block) : (holdBits a n b).acc = a := rfl
@[simp] theorem holdBits_nbits (a : Byte) (n : Nat) (b : Block) : (holdBits a n b).nbits = BitVec.ofNat 3 n := rfl
@[simp] theorem holdBits_x (a : Byte) (n : Nat) (b : Block) : (holdBits a n b).x = b.x := rfl
@[simp] theorem holdBits_y (a : Byte) (n : Nat) (b : Block) : (holdBits a n b).y = b.y := rfl
@[simp] theorem holdBits_out_data (a : Byte) (n : Nat) (b : Block) : (holdBits a n b).out_data = b.out_data := rfl
@[simp] theorem holdBits_out_full (a : Byte) (n : Nat) (b : Block) : (holdBits a n b).out_full = b.out_full := rfl
@[simp] theorem holdBits_count (a : Byte) (n : Nat) (b : Block) : (holdBits a n b).count = b.count := rfl
@[simp] theorem holdBits_err_ovf (a : Byte) (n : Nat) (b : Block) : (holdBits a n b).err_ovf = b.err_ovf := rfl
@[simp] theorem holdBits_err_udf (a : Byte) (n : Nat) (b : Block) : (holdBits a n b).err_udf = b.err_udf := rfl
@[simp] theorem holdBits_err_cmd (a : Byte) (n : Nat) (b : Block) : (holdBits a n b).err_cmd = b.err_cmd := rfl

/-! ### nextColumn -/

@[simp] theorem nextColumn_dim_w (b : Block) : (nextColumn b).dim_w = b.dim_w := rfl
@[simp] theorem nextColumn_dim_h (b : Block) : (nextColumn b).dim_h = b.dim_h := rfl
@[simp] theorem nextColumn_cfg_w (b : Block) : (nextColumn b).cfg_w = b.cfg_w := rfl
@[simp] theorem nextColumn_cfg_h (b : Block) : (nextColumn b).cfg_h = b.cfg_h := rfl
@[simp] theorem nextColumn_busy (b : Block) : (nextColumn b).busy = b.busy := rfl
@[simp] theorem nextColumn_done (b : Block) : (nextColumn b).done = b.done := rfl
@[simp] theorem nextColumn_acc (b : Block) : (nextColumn b).acc = b.acc := rfl
@[simp] theorem nextColumn_nbits (b : Block) : (nextColumn b).nbits = b.nbits := rfl
@[simp] theorem nextColumn_x (b : Block) : (nextColumn b).x = b.x + 1 := rfl
@[simp] theorem nextColumn_y (b : Block) : (nextColumn b).y = b.y := rfl
@[simp] theorem nextColumn_out_data (b : Block) : (nextColumn b).out_data = b.out_data := rfl
@[simp] theorem nextColumn_out_full (b : Block) : (nextColumn b).out_full = b.out_full := rfl
@[simp] theorem nextColumn_count (b : Block) : (nextColumn b).count = b.count := rfl
@[simp] theorem nextColumn_err_ovf (b : Block) : (nextColumn b).err_ovf = b.err_ovf := rfl
@[simp] theorem nextColumn_err_udf (b : Block) : (nextColumn b).err_udf = b.err_udf := rfl
@[simp] theorem nextColumn_err_cmd (b : Block) : (nextColumn b).err_cmd = b.err_cmd := rfl

/-! ### nextRow -/

@[simp] theorem nextRow_dim_w (b : Block) : (nextRow b).dim_w = b.dim_w := rfl
@[simp] theorem nextRow_dim_h (b : Block) : (nextRow b).dim_h = b.dim_h := rfl
@[simp] theorem nextRow_cfg_w (b : Block) : (nextRow b).cfg_w = b.cfg_w := rfl
@[simp] theorem nextRow_cfg_h (b : Block) : (nextRow b).cfg_h = b.cfg_h := rfl
@[simp] theorem nextRow_busy (b : Block) : (nextRow b).busy = b.busy := rfl
@[simp] theorem nextRow_done (b : Block) : (nextRow b).done = b.done := rfl
@[simp] theorem nextRow_acc (b : Block) : (nextRow b).acc = b.acc := rfl
@[simp] theorem nextRow_nbits (b : Block) : (nextRow b).nbits = b.nbits := rfl
@[simp] theorem nextRow_x (b : Block) : (nextRow b).x = 0 := rfl
@[simp] theorem nextRow_y (b : Block) : (nextRow b).y = b.y + 1 := rfl
@[simp] theorem nextRow_out_data (b : Block) : (nextRow b).out_data = b.out_data := rfl
@[simp] theorem nextRow_out_full (b : Block) : (nextRow b).out_full = b.out_full := rfl
@[simp] theorem nextRow_count (b : Block) : (nextRow b).count = b.count := rfl
@[simp] theorem nextRow_err_ovf (b : Block) : (nextRow b).err_ovf = b.err_ovf := rfl
@[simp] theorem nextRow_err_udf (b : Block) : (nextRow b).err_udf = b.err_udf := rfl
@[simp] theorem nextRow_err_cmd (b : Block) : (nextRow b).err_cmd = b.err_cmd := rfl

/-! ### endFrame -/

@[simp] theorem endFrame_dim_w (b : Block) : (endFrame b).dim_w = b.dim_w := rfl
@[simp] theorem endFrame_dim_h (b : Block) : (endFrame b).dim_h = b.dim_h := rfl
@[simp] theorem endFrame_cfg_w (b : Block) : (endFrame b).cfg_w = b.cfg_w := rfl
@[simp] theorem endFrame_cfg_h (b : Block) : (endFrame b).cfg_h = b.cfg_h := rfl
@[simp] theorem endFrame_busy (b : Block) : (endFrame b).busy = false := rfl
@[simp] theorem endFrame_done (b : Block) : (endFrame b).done = true := rfl
@[simp] theorem endFrame_acc (b : Block) : (endFrame b).acc = b.acc := rfl
@[simp] theorem endFrame_nbits (b : Block) : (endFrame b).nbits = b.nbits := rfl
@[simp] theorem endFrame_x (b : Block) : (endFrame b).x = b.x := rfl
@[simp] theorem endFrame_y (b : Block) : (endFrame b).y = b.y := rfl
@[simp] theorem endFrame_out_data (b : Block) : (endFrame b).out_data = b.out_data := rfl
@[simp] theorem endFrame_out_full (b : Block) : (endFrame b).out_full = b.out_full := rfl
@[simp] theorem endFrame_count (b : Block) : (endFrame b).count = b.count := rfl
@[simp] theorem endFrame_err_ovf (b : Block) : (endFrame b).err_ovf = b.err_ovf := rfl
@[simp] theorem endFrame_err_udf (b : Block) : (endFrame b).err_udf = b.err_udf := rfl
@[simp] theorem endFrame_err_cmd (b : Block) : (endFrame b).err_cmd = b.err_cmd := rfl

/-! ### raise -/

@[simp] theorem raise_dim_w (e : ErrorCause) (b : Block) : (raise e b).dim_w = b.dim_w := by cases e <;> rfl
@[simp] theorem raise_dim_h (e : ErrorCause) (b : Block) : (raise e b).dim_h = b.dim_h := by cases e <;> rfl
@[simp] theorem raise_cfg_w (e : ErrorCause) (b : Block) : (raise e b).cfg_w = b.cfg_w := by cases e <;> rfl
@[simp] theorem raise_cfg_h (e : ErrorCause) (b : Block) : (raise e b).cfg_h = b.cfg_h := by cases e <;> rfl
@[simp] theorem raise_busy (e : ErrorCause) (b : Block) : (raise e b).busy = b.busy := by cases e <;> rfl
@[simp] theorem raise_done (e : ErrorCause) (b : Block) : (raise e b).done = b.done := by cases e <;> rfl
@[simp] theorem raise_acc (e : ErrorCause) (b : Block) : (raise e b).acc = b.acc := by cases e <;> rfl
@[simp] theorem raise_nbits (e : ErrorCause) (b : Block) : (raise e b).nbits = b.nbits := by cases e <;> rfl
@[simp] theorem raise_x (e : ErrorCause) (b : Block) : (raise e b).x = b.x := by cases e <;> rfl
@[simp] theorem raise_y (e : ErrorCause) (b : Block) : (raise e b).y = b.y := by cases e <;> rfl
@[simp] theorem raise_out_data (e : ErrorCause) (b : Block) : (raise e b).out_data = b.out_data := by cases e <;> rfl
@[simp] theorem raise_out_full (e : ErrorCause) (b : Block) : (raise e b).out_full = b.out_full := by cases e <;> rfl
@[simp] theorem raise_count (e : ErrorCause) (b : Block) : (raise e b).count = b.count := by cases e <;> rfl
@[simp] theorem raise_err_ovf (e : ErrorCause) (b : Block) : (raise e b).err_ovf = (b.err_ovf || e == .ovf) := by
  cases e <;> simp [raise]
@[simp] theorem raise_err_udf (e : ErrorCause) (b : Block) : (raise e b).err_udf = (b.err_udf || e == .udf) := by
  cases e <;> simp [raise]
@[simp] theorem raise_err_cmd (e : ErrorCause) (b : Block) : (raise e b).err_cmd = (b.err_cmd || e == .cmd) := by
  cases e <;> simp [raise]

end Sys2Proof.Machine
end

