-- ==== Sys2Proof/Laws/Ops.lean ====
section
/-! SUPPORT. What each shared operation can do, said once: its cases, and the fields it never writes. -/

namespace Sys2Proof.Machine

/-! ### START, and the write of CTRL -/

/-- START either is refused, and raises ERR_CMD, or starts the frame. -/
theorem start_cases (b : Block) :
    (startRefused b = true ∧ start b = raise .cmd b) ∨ (startRefused b = false ∧ start b = startFrame b) := by
  unfold start
  cases h : startRefused b <;> simp

theorem startRefused_iff (b : Block) : startRefused b = true ↔ b.busy = true ∨ b.out_full = true := by
  simp [startRefused]

theorem startRefused_eq_false_iff (b : Block) : startRefused b = false ↔ b.busy = false ∧ b.out_full = false := by
  simp [startRefused]

theorem zeroArea_iff (b : Block) : zeroArea b = true ↔ b.dim_w = 0 ∨ b.dim_h = 0 := by
  simp [zeroArea]

theorem zeroArea_eq_false_iff (b : Block) : zeroArea b = false ↔ b.dim_w ≠ 0 ∧ b.dim_h ≠ 0 := by
  simp [zeroArea]

@[simp] theorem startRefused_abort (b : Block) : startRefused (abort b) = false := rfl

@[simp] theorem startRefused_clrErr (b : Block) : startRefused (clrErr b) = startRefused b := rfl

@[simp] theorem start_dim_w (b : Block) : (start b).dim_w = b.dim_w := by
  obtain ⟨-, h⟩ | ⟨-, h⟩ := start_cases b <;> simp [h]

@[simp] theorem start_dim_h (b : Block) : (start b).dim_h = b.dim_h := by
  obtain ⟨-, h⟩ | ⟨-, h⟩ := start_cases b <;> simp [h]

@[simp] theorem start_out_data (b : Block) : (start b).out_data = b.out_data := by
  obtain ⟨-, h⟩ | ⟨-, h⟩ := start_cases b <;> simp [h]

@[simp] theorem start_out_full (b : Block) : (start b).out_full = b.out_full := by
  obtain ⟨-, h⟩ | ⟨-, h⟩ := start_cases b <;> simp [h]

@[simp] theorem start_err_ovf (b : Block) : (start b).err_ovf = b.err_ovf := by
  obtain ⟨-, h⟩ | ⟨-, h⟩ := start_cases b <;> simp [h]

@[simp] theorem start_err_udf (b : Block) : (start b).err_udf = b.err_udf := by
  obtain ⟨-, h⟩ | ⟨-, h⟩ := start_cases b <;> simp [h]

@[simp] theorem start_err_cmd (b : Block) : (start b).err_cmd = (b.err_cmd || startRefused b) := by
  obtain ⟨h', h⟩ | ⟨h', h⟩ := start_cases b <;> simp [h, h']

/-- A write of CTRL as the composition of its sub-actions. -/
theorem writeCtrl_eq (v : Word) (b : Block) :
    writeCtrl v b =
      let b1 := if ctrlAbort v then abort b else b
      let b2 := if ctrlClrErr v then clrErr b1 else b1
      if ctrlStart v then start b2 else b2 := rfl

/-- With no command bit a write of CTRL does nothing. -/
theorem writeCtrl_of_no_command (v : Word) (b : Block) (h0 : ctrlStart v = false) (h1 : ctrlAbort v = false)
    (h2 : ctrlClrErr v = false) : writeCtrl v b = b := by
  simp [writeCtrl, h0, h1, h2]

@[simp] theorem writeCtrl_dim_w (v : Word) (b : Block) : (writeCtrl v b).dim_w = b.dim_w := by
  simp only [writeCtrl]; split <;> split <;> split <;> simp

@[simp] theorem writeCtrl_dim_h (v : Word) (b : Block) : (writeCtrl v b).dim_h = b.dim_h := by
  simp only [writeCtrl]; split <;> split <;> split <;> simp

/-! ### The read of OUT -/

theorem popOut_of_full (b : Block) (h : b.out_full = true) : popOut b = { b with out_full := false } := by
  simp [popOut, h]

theorem popOut_of_empty (b : Block) (h : b.out_full = false) : popOut b = raise .udf b := by
  simp [popOut, h]

theorem outWord_of_full (b : Block) (h : b.out_full = true) : outWord b = (1#1 ++ b.out_data).setWidth 32 := by
  simp [outWord, h]

theorem outWord_of_empty (b : Block) (h : b.out_full = false) : outWord b = 0 := by
  simp [outWord, h]

/-! ### The datapath -/

theorem inReady_iff (b : Block) : inReady b = true ↔ b.busy = true ∧ b.out_full = false := by
  simp [inReady]

theorem inReady_eq_false_iff (b : Block) : inReady b = false ↔ b.busy = false ∨ b.out_full = true := by
  unfold inReady
  cases b.busy <;> simp

theorem lastColumn_iff (b : Block) : lastColumn b = true ↔ b.x.toNat + 1 = b.cfg_w.toNat := by
  simp [lastColumn]

theorem lastRow_iff (b : Block) : lastRow b = true ↔ b.y.toNat + 1 = b.cfg_h.toNat := by
  simp [lastRow]

theorem flushes_iff (b : Block) : flushes b = true ↔ b.nbits.toNat + 1 = 8 ∨ b.x.toNat + 1 = b.cfg_w.toNat := by
  simp [flushes, bitsAfter, lastColumn]

/-- Packing a bit either flushes a byte or holds the bits. -/
theorem packBit_cases (t : TailAlign) (bit : Bool) (b : Block) :
    (flushes b = true ∧ packBit t bit b = flushByte (tail t (accumulate b.acc bit) (bitsAfter b)) b) ∨
    (flushes b = false ∧ packBit t bit b = holdBits (accumulate b.acc bit) (bitsAfter b) b) := by
  unfold packBit
  cases h : flushes b <;> simp

@[simp] theorem packBit_dim_w (t : TailAlign) (bit : Bool) (b : Block) : (packBit t bit b).dim_w = b.dim_w := by
  obtain ⟨-, h⟩ | ⟨-, h⟩ := packBit_cases t bit b <;> simp [h]

@[simp] theorem packBit_dim_h (t : TailAlign) (bit : Bool) (b : Block) : (packBit t bit b).dim_h = b.dim_h := by
  obtain ⟨-, h⟩ | ⟨-, h⟩ := packBit_cases t bit b <;> simp [h]

@[simp] theorem packBit_cfg_w (t : TailAlign) (bit : Bool) (b : Block) : (packBit t bit b).cfg_w = b.cfg_w := by
  obtain ⟨-, h⟩ | ⟨-, h⟩ := packBit_cases t bit b <;> simp [h]

@[simp] theorem packBit_cfg_h (t : TailAlign) (bit : Bool) (b : Block) : (packBit t bit b).cfg_h = b.cfg_h := by
  obtain ⟨-, h⟩ | ⟨-, h⟩ := packBit_cases t bit b <;> simp [h]

@[simp] theorem packBit_busy (t : TailAlign) (bit : Bool) (b : Block) : (packBit t bit b).busy = b.busy := by
  obtain ⟨-, h⟩ | ⟨-, h⟩ := packBit_cases t bit b <;> simp [h]

@[simp] theorem packBit_done (t : TailAlign) (bit : Bool) (b : Block) : (packBit t bit b).done = b.done := by
  obtain ⟨-, h⟩ | ⟨-, h⟩ := packBit_cases t bit b <;> simp [h]

@[simp] theorem packBit_x (t : TailAlign) (bit : Bool) (b : Block) : (packBit t bit b).x = b.x := by
  obtain ⟨-, h⟩ | ⟨-, h⟩ := packBit_cases t bit b <;> simp [h]

@[simp] theorem packBit_y (t : TailAlign) (bit : Bool) (b : Block) : (packBit t bit b).y = b.y := by
  obtain ⟨-, h⟩ | ⟨-, h⟩ := packBit_cases t bit b <;> simp [h]

@[simp] theorem packBit_err_ovf (t : TailAlign) (bit : Bool) (b : Block) : (packBit t bit b).err_ovf = b.err_ovf := by
  obtain ⟨-, h⟩ | ⟨-, h⟩ := packBit_cases t bit b <;> simp [h]

@[simp] theorem packBit_err_udf (t : TailAlign) (bit : Bool) (b : Block) : (packBit t bit b).err_udf = b.err_udf := by
  obtain ⟨-, h⟩ | ⟨-, h⟩ := packBit_cases t bit b <;> simp [h]

@[simp] theorem packBit_err_cmd (t : TailAlign) (bit : Bool) (b : Block) : (packBit t bit b).err_cmd = b.err_cmd := by
  obtain ⟨-, h⟩ | ⟨-, h⟩ := packBit_cases t bit b <;> simp [h]

@[simp] theorem packBit_lastColumn (t : TailAlign) (bit : Bool) (b : Block) :
    lastColumn (packBit t bit b) = lastColumn b := by simp [lastColumn]

@[simp] theorem packBit_lastRow (t : TailAlign) (bit : Bool) (b : Block) : lastRow (packBit t bit b) = lastRow b := by
  simp [lastRow]

/-- The position advance: to the next column, to the next row, or to the end of the frame. -/
theorem advance_cases (b : Block) :
    (lastColumn b = false ∧ advance b = nextColumn b) ∨
    (lastColumn b = true ∧ lastRow b = false ∧ advance b = nextRow b) ∨
    (lastColumn b = true ∧ lastRow b = true ∧ advance b = endFrame (nextRow b)) := by
  unfold advance
  cases h : lastColumn b <;> cases h' : lastRow b <;> simp

@[simp] theorem advance_dim_w (b : Block) : (advance b).dim_w = b.dim_w := by
  obtain ⟨-, h⟩ | ⟨-, -, h⟩ | ⟨-, -, h⟩ := advance_cases b <;> simp [h]

@[simp] theorem advance_dim_h (b : Block) : (advance b).dim_h = b.dim_h := by
  obtain ⟨-, h⟩ | ⟨-, -, h⟩ | ⟨-, -, h⟩ := advance_cases b <;> simp [h]

@[simp] theorem advance_cfg_w (b : Block) : (advance b).cfg_w = b.cfg_w := by
  obtain ⟨-, h⟩ | ⟨-, -, h⟩ | ⟨-, -, h⟩ := advance_cases b <;> simp [h]

@[simp] theorem advance_cfg_h (b : Block) : (advance b).cfg_h = b.cfg_h := by
  obtain ⟨-, h⟩ | ⟨-, -, h⟩ | ⟨-, -, h⟩ := advance_cases b <;> simp [h]

@[simp] theorem advance_acc (b : Block) : (advance b).acc = b.acc := by
  obtain ⟨-, h⟩ | ⟨-, -, h⟩ | ⟨-, -, h⟩ := advance_cases b <;> simp [h]

@[simp] theorem advance_nbits (b : Block) : (advance b).nbits = b.nbits := by
  obtain ⟨-, h⟩ | ⟨-, -, h⟩ | ⟨-, -, h⟩ := advance_cases b <;> simp [h]

@[simp] theorem advance_out_data (b : Block) : (advance b).out_data = b.out_data := by
  obtain ⟨-, h⟩ | ⟨-, -, h⟩ | ⟨-, -, h⟩ := advance_cases b <;> simp [h]

@[simp] theorem advance_out_full (b : Block) : (advance b).out_full = b.out_full := by
  obtain ⟨-, h⟩ | ⟨-, -, h⟩ | ⟨-, -, h⟩ := advance_cases b <;> simp [h]

@[simp] theorem advance_count (b : Block) : (advance b).count = b.count := by
  obtain ⟨-, h⟩ | ⟨-, -, h⟩ | ⟨-, -, h⟩ := advance_cases b <;> simp [h]

@[simp] theorem advance_err_ovf (b : Block) : (advance b).err_ovf = b.err_ovf := by
  obtain ⟨-, h⟩ | ⟨-, -, h⟩ | ⟨-, -, h⟩ := advance_cases b <;> simp [h]

@[simp] theorem advance_err_udf (b : Block) : (advance b).err_udf = b.err_udf := by
  obtain ⟨-, h⟩ | ⟨-, -, h⟩ | ⟨-, -, h⟩ := advance_cases b <;> simp [h]

@[simp] theorem advance_err_cmd (b : Block) : (advance b).err_cmd = b.err_cmd := by
  obtain ⟨-, h⟩ | ⟨-, -, h⟩ | ⟨-, -, h⟩ := advance_cases b <;> simp [h]

theorem writePixel_of_ready (t : TailAlign) (p : Word) (b : Block) (h : inReady b = true) :
    writePixel t p b = pixelStep t p b := by simp [writePixel, h]

theorem writePixel_of_not_ready (t : TailAlign) (p : Word) (b : Block) (h : inReady b = false) :
    writePixel t p b = raise .ovf b := by simp [writePixel, h]

/-! ### Serialised words and register words -/

theorem serialise_getLsbD (h : BitVec 4) (v : Word) (k : Nat) :
    (serialise h v).getLsbD k = if k < 32 then v.getLsbD k else h.getLsbD (k - 32) := by
  exact (BitVec.getLsbD_append (x := h) (y := v) (i := k)).trans (by cases decide (k < 32) <;> rfl)

theorem serialise_getElem (h : BitVec 4) (v : Word) (k : Nat) (hk : k < 36) :
    (serialise h v)[k] = if k < 32 then v.getLsbD k else h.getLsbD (k - 32) := by
  rw [← BitVec.getLsbD_eq_getElem, serialise_getLsbD]

/-- The header's bits stand at 35:32 of the serialised word. -/
theorem serialise_getLsbD_header (h : BitVec 4) (v : Word) (k : Nat) :
    (serialise h v).getLsbD (32 + k) = h.getLsbD k := by
  simp [serialise_getLsbD]

@[simp] theorem wdataOf_serialise (h : BitVec 4) (v : Word) : wdataOf (serialise h v) = v := by
  apply BitVec.eq_of_getLsbD_eq
  intro k hk
  simp [wdataOf, serialise_getLsbD, hk]

theorem serialise_toNat (h : BitVec 4) (v : Word) : (serialise h v).toNat = h.toNat * 2 ^ 32 + v.toNat := by
  refine (BitVec.toNat_append h v).trans ?_
  rw [Nat.shiftLeft_eq, Nat.mul_comm, ← Nat.two_pow_add_eq_or_of_lt v.isLt]

/-- A word made of two halves, as a number. -/
theorem append_toNat_16 (a b : BitVec 16) : ((a ++ b : BitVec (16 + 16)) : Word).toNat = a.toNat * 2 ^ 16 + b.toNat := by
  refine (BitVec.toNat_append a b).trans ?_
  rw [Nat.shiftLeft_eq, Nat.mul_comm, ← Nat.two_pow_add_eq_or_of_lt b.isLt]

theorem dimWord_toNat (b : Block) : (dimWord b).toNat = b.dim_h.toNat * 2 ^ 16 + b.dim_w.toNat :=
  append_toNat_16 b.dim_h b.dim_w

theorem posWord_toNat (b : Block) : (posWord b).toNat = b.y.toNat * 2 ^ 16 + b.x.toNat :=
  append_toNat_16 b.y b.x

end Sys2Proof.Machine
end

