-- ==== Sys2Proof/Laws/Exec.lean ====
section
/-! SUPPORT. What `exec`, `step`, `transact` and `runHost` do, one equation each; later proofs rewrite with these and
unfold none of them. -/

namespace Sys2Proof.Machine

theorem exec_rdCtrl (s : State) : exec .rdCtrl s = .next (s.read .ctrl) := rfl
theorem exec_rdStatus (s : State) : exec .rdStatus s = .next (s.read .status) := rfl
theorem exec_rdDim (s : State) : exec .rdDim s = .next (s.read .dim) := rfl
theorem exec_rdPixel (s : State) : exec .rdPixel s = .next (s.read .pixel) := rfl
theorem exec_rdOut (s : State) : exec .rdOut s = .next (s.complete (popOut s.block) (outWord s.block)) := rfl
theorem exec_rdLen (s : State) : exec .rdLen s = .next (s.read .len) := rfl
theorem exec_rdPos (s : State) : exec .rdPos s = .next (s.read .pos) := rfl
theorem exec_rdCount (s : State) : exec .rdCount s = .next (s.read .count) := rfl
theorem exec_wrCtrl (v : Word) (s : State) : exec (.wrCtrl v) s = .next (s.write (writeCtrl v s.block)) := rfl
theorem exec_wrStatus (v : Word) (s : State) : exec (.wrStatus v) s = .next (s.write s.block) := rfl
theorem exec_wrDim (v : Word) (s : State) : exec (.wrDim v) s = .next (s.write (writeDim v s.block)) := rfl
theorem exec_wrPixel (v : Word) (s : State) :
    exec (.wrPixel v) s = .next (s.write (writePixel .lsbLiteral v s.block)) := rfl
theorem exec_wrOut (v : Word) (s : State) : exec (.wrOut v) s = .next (s.write s.block) := rfl
theorem exec_wrLen (v : Word) (s : State) : exec (.wrLen v) s = .next (s.write s.block) := rfl
theorem exec_wrPos (v : Word) (s : State) : exec (.wrPos v) s = .next (s.write s.block) := rfl
theorem exec_wrCount (v : Word) (s : State) : exec (.wrCount v) s = .next (s.write s.block) := rfl

/-- The only transactions that do anything to the record are WR.CTRL, WR.PIXEL, WR.DIM and RD.OUT, and what each does
is one operation; every other one leaves it as it is. -/
theorem exec_block_cases {i : Instr} {s t : State} (h : exec i s = .next t) :
    (∃ v, i = .wrCtrl v ∧ t.block = writeCtrl v s.block) ∨
    (∃ v, i = .wrPixel v ∧ t.block = writePixel .lsbLiteral v s.block) ∨
    (∃ v, i = .wrDim v ∧ t.block = writeDim v s.block) ∨
    (i = .rdOut ∧ t.block = popOut s.block) ∨
    ((∀ v, i ≠ .wrCtrl v) ∧ (∀ v, i ≠ .wrPixel v) ∧ (∀ v, i ≠ .wrDim v) ∧ i ≠ .rdOut ∧ t.block = s.block) := by
  cases i <;> (injection h with h; subst h) <;> simp [State.write, State.complete, State.read]
  rfl

/-- No transaction touches the host's pending cycles. -/
theorem exec_pending {i : Instr} {s t : State} (h : exec i s = .next t) : t.pending = s.pending := by
  cases i <;> (injection h with h; subst h; rfl)

theorem step_of_nil {s : State} (h : s.pending = []) : step s = .next s.idle := by
  simp [step, h]

theorem step_of_rst {s : State} {c : PortCycle} {rest : List PortCycle} (h : s.pending = c :: rest)
    (hr : c.rst = true) : step s = .next (s.withPending rest).hardwareReset := by
  simp [step, h, hr]

theorem step_of_sel {s : State} {c : PortCycle} {rest : List PortCycle} (h : s.pending = c :: rest)
    (hr : c.rst = false) (hs : c.sel = true) : step s = exec (decode c.word) (s.withPending rest) := by
  simp [step, h, hr, hs]

theorem step_of_no_sel {s : State} {c : PortCycle} {rest : List PortCycle} (h : s.pending = c :: rest)
    (hr : c.rst = false) (hs : c.sel = false) : step s = .next (s.withPending rest).idle := by
  simp [step, h, hr, hs]

theorem transact_eq_some_iff (i : Instr) (s t : State) : transact i s = some t ↔ exec i s = .next t := by
  unfold transact
  split <;> simp_all

theorem transact_of_exec {i : Instr} {s t : State} (h : exec i s = .next t) : transact i s = some t :=
  (transact_eq_some_iff i s t).mpr h

@[simp] theorem runHost_nil (s : State) : runHost [] s = some (s, []) := rfl

/-- A run of the host is its first transaction and the run of the rest from there. -/
theorem runHost_cons_iff (i : Instr) (is : List Instr) (s u : State) (rs : List Word) :
    runHost (i :: is) s = some (u, rs) ↔
      ∃ t rs', exec i s = .next t ∧ runHost is t = some (u, rs') ∧ rs = t.rdata :: rs' := by
  simp only [runHost]
  constructor
  · intro h
    split at h
    · simp at h
    · rename_i t ht
      split at h
      · simp at h
      · rename_i u' rs' hr
        simp only [Option.some.injEq, Prod.mk.injEq] at h
        obtain ⟨rfl, rfl⟩ := h
        exact ⟨t, rs', (transact_eq_some_iff i s t).mp ht, hr, rfl⟩
  · rintro ⟨t, rs', ht, hr, rfl⟩
    simp [transact_of_exec ht, hr]

end Sys2Proof.Machine
end

