-- ==== Sys2Proof/Laws/PerInstr.lean ====
section
/-! SUPPORT. Statements made of each instruction as syntax. Family TableMatch: the canonical serialisation of the
instruction matches its row of opcode_table.json under the table's one mask. -/

namespace Sys2Proof.Laws.TableMatch

/-- The "mask" of every row of opcode_table.json. -/
def mask : TWord := 0xF00000000

/-- The "match" of the instruction's row, as the table writes it. -/
def rowMatch : Instr → TWord
  | .rdCtrl => 0x000000000
  | .rdStatus => 0x100000000
  | .rdDim => 0x200000000
  | .rdPixel => 0x300000000
  | .rdOut => 0x400000000
  | .rdLen => 0x500000000
  | .rdPos => 0x600000000
  | .rdCount => 0x700000000
  | .wrCtrl _ => 0x800000000
  | .wrStatus _ => 0x900000000
  | .wrDim _ => 0xA00000000
  | .wrPixel _ => 0xB00000000
  | .wrOut _ => 0xC00000000
  | .wrLen _ => 0xD00000000
  | .wrPos _ => 0xE00000000
  | .wrCount _ => 0xF00000000

/-- The instruction's serialisation, under the mask, is its row's match. -/
def Statement (i : Instr) : Prop := encode i &&& mask = rowMatch i

/-- The mask keeps the header and clears `WDATA`. -/
theorem serialise_and_mask (h : BitVec 4) (v : Word) : serialise h v &&& mask = serialise h 0 := by
  apply BitVec.eq_of_getLsbD_eq
  intro k hk
  rw [BitVec.getLsbD_and, show mask = serialise 0xF 0 from rfl, Machine.serialise_getLsbD, Machine.serialise_getLsbD,
    Machine.serialise_getLsbD]
  split
  · simp
  · have hk' : k - 32 < 4 := by omega
    have : (0xF#4).getLsbD (k - 32) = true := by
      rw [show (0xF#4) = BitVec.allOnes 4 from rfl, BitVec.getLsbD_allOnes]
      simpa using hk'
    exact (congrArg (h.getLsbD (k - 32) && ·) this).trans (Bool.and_true _)

theorem rdCtrl : Statement .rdCtrl := rfl
theorem rdStatus : Statement .rdStatus := rfl
theorem rdDim : Statement .rdDim := rfl
theorem rdPixel : Statement .rdPixel := rfl
theorem rdOut : Statement .rdOut := rfl
theorem rdLen : Statement .rdLen := rfl
theorem rdPos : Statement .rdPos := rfl
theorem rdCount : Statement .rdCount := rfl
theorem wrCtrl (v : Word) : Statement (.wrCtrl v) := serialise_and_mask 0x8 v
theorem wrStatus (v : Word) : Statement (.wrStatus v) := serialise_and_mask 0x9 v
theorem wrDim (v : Word) : Statement (.wrDim v) := serialise_and_mask 0xA v
theorem wrPixel (v : Word) : Statement (.wrPixel v) := serialise_and_mask 0xB v
theorem wrOut (v : Word) : Statement (.wrOut v) := serialise_and_mask 0xC v
theorem wrLen (v : Word) : Statement (.wrLen v) := serialise_and_mask 0xD v
theorem wrPos (v : Word) : Statement (.wrPos v) := serialise_and_mask 0xE v
theorem wrCount (v : Word) : Statement (.wrCount v) := serialise_and_mask 0xF v

end Sys2Proof.Laws.TableMatch
end

