-- ==== Sys2Proof/Tests/Slice0.lean ====
section
/-! SUPPORT. The model's own tests: the words of every transaction written out from 30_encoding.md, ill-formed terms,
single steps whose results are the vectors of 95_test_vectors.md, and for every statement with hypotheses a state and
operands that meet them. -/

namespace Sys2Proof.Machine.Test

/-! ### Helpers: small states -/

/-- A frame of `w` by `h` running, at column `x` and row `y`, with `count` bytes flushed. -/
def running (w h x y : Dim) (acc : Byte) (nbits : BitVec 3) (count : Word) : Block :=
  { Block.reset with
    dim_w := w, dim_h := h, cfg_w := w, cfg_h := h, busy := true, x := x, y := y, acc := acc, nbits := nbits,
    count := count }

/-- The 8×1 frame of vector group V-C with three black pixels in. -/
def three : Block := running 8 1 3 0 0b111 3 0

/-- The 9×1 frame of vectors VO2 and VO8: eight pixels in, 0xFF waiting. -/
def waiting : Block := { running 9 1 8 0 0 0 1 with out_data := 0xFF, out_full := true }

/-- The 8×1 frame of vectors VC4 and VC5: done, 0xFF waiting. -/
def doneWaiting : Block :=
  { running 8 1 0 1 0 0 1 with busy := false, done := true, out_data := 0xFF, out_full := true }

/-- The same, drained (vectors VC9 and VC10). -/
def doneDrained : Block := { doneWaiting with out_full := false }

/-- A zero-area frame of 0×3, done at once (vector VO4). -/
def doneZeroArea : Block := { Block.reset with dim_h := 3, cfg_h := 3, done := true }

/-- The machine around a block. -/
def around (b : Block) : State := { block := b, rdata := 0, pending := [] }

/-- The block after a transaction. -/
def after (i : Instr) (b : Block) : Option Block := (transact i (around b)).map State.block

/-- What a transaction returns. -/
def returns (i : Instr) (b : Block) : Option Word := (transact i (around b)).map State.rdata

/-- STATUS, POS and COUNT after a transaction, as the tables of 95_test_vectors.md give them. -/
def shows (i : Instr) (b : Block) : Option (Word × Word × Word) :=
  (after i b).map fun c => (statusWord c, posWord c, c.count)

/-! ### Decoding: every header of R74, written out -/

theorem test_decode_reads :
    decode 0b0000_00000000000000000000000000000000#36 = .rdCtrl ∧
    decode 0b0001_00000000000000000000000000000000#36 = .rdStatus ∧
    decode 0b0010_00000000000000000000000000000000#36 = .rdDim ∧
    decode 0b0011_00000000000000000000000000000000#36 = .rdPixel ∧
    decode 0b0100_00000000000000000000000000000000#36 = .rdOut ∧
    decode 0b0101_00000000000000000000000000000000#36 = .rdLen ∧
    decode 0b0110_00000000000000000000000000000000#36 = .rdPos ∧
    decode 0b0111_00000000000000000000000000000000#36 = .rdCount := by decide

theorem test_decode_writes :
    decode 0b1000_00000000000000000000000000000111#36 = .wrCtrl 0x7 ∧
    decode 0b1001_11111111111111111111111111111111#36 = .wrStatus 0xFFFFFFFF ∧
    decode 0b1010_00000000010000000000000010000000#36 = .wrDim 0x00400080 ∧
    decode 0b1011_11111111000111100001010000001010#36 = .wrPixel 0xFF1E140A ∧
    decode 0b1100_00000000000000000000000000000001#36 = .wrOut 0x1 ∧
    decode 0b1101_00000000000000000000000000000101#36 = .wrLen 0x5 ∧
    decode 0b1110_00000000000000010000000000000000#36 = .wrPos 0x00010000 ∧
    decode 0b1111_10000000000000000000000000000000#36 = .wrCount 0x80000000 := by decide

/-- R71: "any value decodes to the same read". -/
theorem test_decode_read_ignores_wdata : decode 0x4FFFFFFFF = .rdOut := by decide

theorem test_decode_table_word :
    decodeTableWord 40 0xB00000000 = some (.wrPixel 0) ∧ decodeTableWord 40 0x1000000000 = none := by decide

/-! ### Ill-formed terms -/

theorem test_wellFormed_imm32 : (Asm.wr .ctrl (2 ^ 32)).wellFormed = false := by decide
theorem test_wellFormed_width : (Asm.setDim 65536 1).wellFormed = false := by decide
theorem test_wellFormed_height : (Asm.setDim 1 65536).wellFormed = false := by decide
theorem test_wellFormed_red : (Asm.push 256 0 0).wellFormed = false := by decide
theorem test_wellFormed_green : (Asm.push 0 256 0).wellFormed = false := by decide
theorem test_wellFormed_blue : (Asm.push 0 0 256).wellFormed = false := by decide
theorem test_wellFormed_alpha_red : (Asm.pushA 256 0 0 0).wellFormed = false := by decide
theorem test_wellFormed_alpha_green : (Asm.pushA 0 256 0 0).wellFormed = false := by decide
theorem test_wellFormed_alpha_blue : (Asm.pushA 0 0 256 0).wellFormed = false := by decide
theorem test_wellFormed_alpha : (Asm.pushA 0 0 0 256).wellFormed = false := by decide
theorem test_portable_reserved_bits : (Instr.wrCtrl 0x8).portable = false := by decide
theorem test_decodeNumber_too_wide : decodeNumber (2 ^ 36) = .error .widerThan36Bits := by decide
theorem test_bus_refusals :
    BusAccess.transaction ⟨0, 2, none⟩ = .error .notAWord ∧ memRead 2 = .error .misaligned ∧
    memRead 0x20 = .error .outsideWindow ∧ memWrite 0 (2 ^ 32) = .error .valueTooWide := by decide

/-! ### Single steps: the vectors of 95_test_vectors.md -/

/-- VC12. -/
theorem test_rdCtrl : returns .rdCtrl three = some 0 ∧ after .rdCtrl three = some three := by decide
/-- VS8. -/
theorem test_rdStatus : returns .rdStatus doneWaiting = some 0x0000000A := by decide
/-- VS5. -/
theorem test_rdDim : (after (.wrDim 0x00020003) three).bind (returns .rdDim) = some 0x00020003 := by decide
/-- VS3. -/
theorem test_rdLen_tail : (after (.wrDim 0x00030011) Block.reset).bind (returns .rdLen) = some 9 := by decide
/-- VS2. -/
theorem test_rdLen_max : (after (.wrDim 0xFFFFFFFF) Block.reset).bind (returns .rdLen) = some 0x1FFFE000 := by decide
/-- VS7. -/
theorem test_rdPos : returns .rdPos (running 9 2 0 1 0 0 2) = some 0x00010000 := by decide
/-- VS7. -/
theorem test_rdCount : returns .rdCount (running 9 2 0 1 0 0 2) = some 2 := by decide
/-- VO9. -/
theorem test_rdPixel : returns .rdPixel (running 8 1 1 0 1 1 0) = some 0 := by decide
/-- VO8: the byte, with VALID, and IN_READY again. -/
theorem test_rdOut_pops : returns .rdOut waiting = some 0x000001FF ∧ shows .rdOut waiting = some (0x05, 0x8, 1) := by
  decide
/-- VO7. -/
theorem test_rdOut_empty : returns .rdOut Block.reset = some 0 ∧ shows .rdOut Block.reset = some (0x20, 0, 0) := by decide
/-- VC6: CLR_ERR, then a refused START. -/
theorem test_wrCtrl_clears_then_refuses :
    shows (.wrCtrl 0x5) { three with err_ovf := true } = some (0x45, 0x3, 0) := by decide
/-- VC5: RESTART discards the waiting byte. -/
theorem test_wrCtrl_restart : shows (.wrCtrl 0x3) doneWaiting = some (0x05, 0, 0) := by decide
/-- VS6, VO8: the ignored writes. -/
theorem test_wrStatus : after (.wrStatus 0xFFFFFFFF) { three with err_ovf := true } = some { three with err_ovf := true } := by
  decide
theorem test_wrOut : (after (.wrOut 0) waiting).bind (returns .rdOut) = some 0x000001FF := by decide
theorem test_wrLen : after (.wrLen 5) three = some three := by decide
theorem test_wrPos : after (.wrPos 0x00010000) three = some three := by decide
theorem test_wrCount : after (.wrCount 0) waiting = some waiting := by decide
/-- VS5: the running frame keeps its latched dimensions. -/
theorem test_wrDim_mid_frame :
    (after (.wrDim 0x00020003) three).map (fun b => (b.dim_w, b.dim_h, b.cfg_w, b.cfg_h)) = some (3, 2, 8, 1) := by decide
/-- VO10: the eighth bit is also the row's last; one flush, and the frame is done. -/
theorem test_wrPixel_flush_once :
    shows (.wrPixel 0x007F7F7F) (running 8 1 7 0 0x7F 7 0) = some (0x0A, 0x00010000, 1) := by decide
/-- VO2: a byte waits. -/
theorem test_wrPixel_dropped : shows (.wrPixel 0xFF000000) waiting = some (0x19, 0x8, 1) := by decide

/-- V-L1 and V-L2: the exact threshold, and alpha ignored. -/
theorem test_threshold :
    [0xFF000000, 0xFFFFFFFF, 0xFF808080, 0xFF80807F, 0xFF00D900, 0xFF00D800, 0xFF6BC500, 0x003264C8, 0x078C8278].map
      pixelBit = [true, false, false, true, false, true, false, true, false] := by decide

/-- V-T, W = 5 and W = 9: the tail under both alignments. -/
theorem test_tail_alignments :
    let p : Nat → Word := fun b => if b = 1 then 0 else 0xFFFFFFFF
    encodeBytes .lsbLiteral 5 1 ([1, 1, 0, 1, 1].map p) = [0x1B] ∧
    encodeBytes .msbPadded 5 1 ([1, 1, 0, 1, 1].map p) = [0xD8] ∧
    encodeBytes .lsbLiteral 9 1 ([1, 1, 1, 1, 1, 1, 1, 1, 1].map p) = [0xFF, 0x01] := by decide

/-- VX2: `rst = 1` ignores `sel`. -/
theorem test_reset_cycle :
    (match step { around three with pending := [⟨true, true, true, 0, 1⟩] } with
      | .next t => some (t.block, t.rdata)
      | _ => none) = some (Block.reset, 0) := by decide

/-- The second line of program P1, as the first step after reset. -/
theorem test_first_step :
    (match step (State.reset.withFetchWord 40 0xA00010008) with
      | .next t => some (t.block.dim_w, t.block.dim_h, t.pending)
      | _ => none) = some (8, 1, []) := by decide

/-- The opcode map has a row for every header, no header twice. -/
theorem test_headers_distinct :
    ([.rdCtrl, .rdStatus, .rdDim, .rdPixel, .rdOut, .rdLen, .rdPos, .rdCount, .wrCtrl 0, .wrStatus 0, .wrDim 0, .wrPixel 0,
      .wrOut 0, .wrLen 0, .wrPos 0, .wrCount 0].map headerOf).Nodup := by decide

/-! ### Witnesses: for every statement with hypotheses, values that meet them together, clause by clause -/

theorem witness_DecodeOfEncodeIsTheInstruction : (Instr.wrPixel 0xFF000000).wellFormed = true := by decide

theorem witness_PseudoInstructionsExpand :
    (Asm.setDim 65535 65535).wellFormed = true ∧ (65535 < 65536 ∨ 65535 < 0) ∧ (Asm.push 255 255 255).wellFormed = true ∧
    (255 < 256 ∨ 255 < 0 ∨ 255 < 0) ∧ (Asm.pushA 255 255 255 255).wellFormed = true ∧ (255 < 256 ∨ 255 < 0 ∨ 255 < 0 ∨ 255 < 0) ∧ 2 ^ 32 - 1 < 2 ^ 32 ∧
    2 ^ 32 ≤ 2 ^ 32 := by decide

theorem witness_HostBusReachesEveryRegister :
    2 ^ 32 - 1 < 2 ^ 32 ∧
    (∃ m : BusAccess, m.size ≠ 4) ∧ (∃ m : BusAccess, m.off % 4 ≠ 0) ∧ (∃ m : BusAccess, 0x1C < m.off) :=
  ⟨by decide, ⟨⟨0, 2, none⟩, by decide⟩, ⟨⟨0x1D, 4, none⟩, by decide⟩, ⟨⟨0x20, 4, none⟩, by decide⟩⟩

theorem witness_StepRunsDecodedTransaction :
    let c := PortCycle.ofInstr .rdOut
    let s : State := { around waiting with pending := [c] }
    s.pending = [c] ∧ c.rst = false ∧ c.sel = true ∧ Instr.rdOut.wellFormed = true ∧ decode c.word = .rdOut := by decide

theorem witness_IdleCycleChangesNothing :
    let c := PortCycle.noTransaction
    let s : State := { around three with pending := [c] }
    (s.pending = [c] ∧ c.rst = false ∧ c.sel = false) ∧ (around three).pending = [] := by decide

theorem witness_HardwareResetCycle :
    let c : PortCycle := ⟨true, true, true, 0, 1⟩
    let s : State := { around three with pending := [c] }
    (s.pending = [c] ∧ c.rst = true) ∧ (around Block.reset).block = State.reset.block := by decide

theorem witness_RdStatusReadsTheFlags :
    three.Inv ∧ waiting.busy = true ∧ waiting.done = false ∧ waiting.out_full = true ∧ waiting.noErrors := by decide

theorem witness_RdLenReadsByteCountOfDimensions :
    Block.reset.dim_w = 0 ∧ { Block.reset with dim_w := 1, dim_h := 0xFFFF }.dim_w = 1 ∧
    (running 9 1 0 0 0 0 0).dim_w = 9 ∧
    ((running 0xFFFF 0xFFFF 0 0 0 0 0).dim_w = 0xFFFF ∧ (running 0xFFFF 0xFFFF 0 0 0 0 0).dim_h = 0xFFFF) ∧
    ((running 3 2 0 0 0 0 0).dim_w = 3 ∧ (running 3 2 0 0 0 0 0).dim_h = 2) := by decide

theorem witness_RdPosReadsPositionCounter :
    (doneWaiting.Inv ∧ doneWaiting.done = true ∧ doneWaiting.cfg_w ≠ 0 ∧ doneWaiting.cfg_h ≠ 0) ∧
    (doneZeroArea.Inv ∧ doneZeroArea.done = true ∧ doneZeroArea.cfg_w = 0) :=
  ⟨⟨by decide, by decide⟩, by decide, by decide⟩

theorem witness_RdCountReadsFlushedBytes : doneWaiting.Inv ∧ doneWaiting.done = true := by decide

theorem witness_IgnoredWritesChangeNothing :
    let b : Block := { doneWaiting with out_data := 0x05 }
    b.out_full = true ∧ b.out_data = 0x05 := by decide

theorem witness_WrCtrlRunsSubActionsInOrder :
    (0xFFFFFFF8 : Word) &&& 0x7 = 0 ∧ three.busy = true ∧ doneWaiting.out_full = true := by decide

theorem witness_AbortClearsTheDatapath :
    ((0x2 : Word)[1] = true ∧ (0x2 : Word)[0] = false ∧ (0x2 : Word)[2] = false) ∧
    (doneDrained.Inv ∧ doneDrained.busy = false ∧ doneDrained.out_full = false) ∧
    (three.busy = true ∧ (after (.wrCtrl 0x2) three).map (fun b => (b.busy, b.done)) = some (false, false)) :=
  ⟨by decide, ⟨by decide, by decide⟩, by decide⟩

theorem witness_ClrErrClearsTheThreeFlags :
    ((0x4 : Word)[2] = true ∧ (0x4 : Word)[0] = false ∧ (0x4 : Word)[1] = false) ∧
    returns .rdStatus { Block.reset with err_ovf := true, err_cmd := true } = some 0x00000050 := by decide

theorem witness_StartLatchesDimensionsOrIsRefused :
    ((0x1 : Word)[0] = true ∧ (0x1 : Word)[1] = false ∧ (0x1 : Word)[2] = false) ∧
    (three.busy = true) ∧ (doneWaiting.out_full = true) ∧
    (doneZeroArea.busy = false ∧ doneZeroArea.out_full = false ∧ doneZeroArea.dim_w = 0) ∧
    (doneDrained.busy = false ∧ doneDrained.out_full = false ∧ doneDrained.dim_w ≠ 0 ∧ doneDrained.dim_h ≠ 0) := by decide

theorem witness_SoftResetLeavesRegistersAsAfterReset : Reg.pos ≠ .dim ∧ Reg.pos ≠ .len := by decide

theorem witness_WrPixelAcceptedOrDropped :
    (three.busy = true ∧ three.out_full = false) ∧ Block.reset.busy = false ∧ waiting.out_full = true ∧
    (let b := running 1 4 0 1 0 0 1
     b.Inv ∧ b.busy = true ∧ b.out_full = false ∧ b.cfg_w = 1) := by decide

/-- A pixel that flushes in mid-row, one that holds, one that ends a row, one that ends the frame, and R110's example. -/
theorem witness_AcceptedPixelEffect :
    (let b := running 9 2 7 0 0x7F 7 0
     b.Inv ∧ b.busy = true ∧ b.out_full = false ∧ b.nbits.toNat + 1 = 8 ∧ ¬(b.x.toNat + 1 = b.cfg_w.toNat)) ∧
    (three.Inv ∧ three.busy = true ∧ three.out_full = false ∧
      ¬(three.nbits.toNat + 1 = 8 ∨ three.x.toNat + 1 = three.cfg_w.toNat)) ∧
    (let b := running 9 2 8 0 0 0 1
     b.Inv ∧ b.busy = true ∧ b.out_full = false ∧ b.x.toNat + 1 = b.cfg_w.toNat ∧ ¬(b.y.toNat + 1 = b.cfg_h.toNat)) ∧
    (let b := running 9 2 8 1 0 0 3
     b.Inv ∧ b.busy = true ∧ b.out_full = false ∧ b.x.toNat + 1 = b.cfg_w.toNat ∧ b.y.toNat + 1 = b.cfg_h.toNat) ∧
    (let b := running 8 1 7 0 0x7F 7 0
     b.busy = true ∧ b.out_full = false ∧ b.cfg_w = 8 ∧ b.cfg_h = 1 ∧ b.acc = 0x7F ∧ b.nbits = 7 ∧ b.x = 7 ∧ b.y = 0) :=
  ⟨⟨by decide, by decide⟩, ⟨by decide, by decide⟩, ⟨by decide, by decide⟩, ⟨by decide, by decide⟩, by decide⟩

theorem witness_FlushExactlyAtByteOrRowEnd :
    let b := running 0xFFFF 0xFFFF 0xFFFE 0xFFFE 0x3F 6 536862719
    b.Inv ∧ b.busy = true ∧ b.out_full = false := by decide

theorem witness_RdOutPopsOrSetsErrUdf :
    (waiting.out_full = true ∧ waiting.out_data = 0xFF) ∧ three.out_full = false ∧
    ({ waiting with out_data := 0x00 }.out_full = true ∧ { waiting with out_data := 0x00 }.out_data = 0x00) := by decide

theorem witness_AlphaNeverMatters :
    (0x003264C8 : Word).toNat % 2 ^ 24 = (0xFF3264C8 : Word).toNat % 2 ^ 24 := by decide

theorem witness_ThresholdIsExact :
    (0x000000 : Word).toNat % 256 ≤ (0x80807F : Word).toNat % 256 ∧
    (0x000000 : Word).toNat / 256 % 256 ≤ (0x80807F : Word).toNat / 256 % 256 ∧
    (0x000000 : Word).toNat / 65536 % 256 ≤ (0x80807F : Word).toNat / 65536 % 256 ∧
    pixelBit 0x80807F = true := by decide

theorem witness_AccumulateKeepsEveryBit : 7 ≤ 7 ∧ (0x7F : Byte).toNat < 2 ^ 7 ∧ (0 : Byte).toNat < 2 ^ 0 := by decide

theorem witness_TailByteValue : 1 ≤ 8 ∧ 8 ≤ 8 ∧ (0xFF : Byte).toNat < 2 ^ 8 ∧ (0x01 : Byte).toNat < 2 ^ 1 := by decide

theorem witness_OnlyReadsOfOutHaveASideEffect :
    Reg.status ≠ .out ∧ waiting.out_full = true ∧ three.err_udf = false ∧ Reg.count = .count := by decide

/-- Each flag rising on its cause, so each direction's hypotheses are met. -/
theorem witness_ErrorFlagsRiseOnTheirCauses :
    ((waiting.err_ovf = false ∧ (after (.wrPixel 0) waiting).map (·.err_ovf) = some true) ∧
      (three.err_udf = false ∧ (after .rdOut three).map (·.err_udf) = some true) ∧
      (three.err_cmd = false ∧ (after (.wrCtrl 0x1) three).map (·.err_cmd) = some true)) := by decide

theorem witness_ErrorsArePrecise :
    (errorFlag .udf three = false ∧ (after .rdOut three).map (errorFlag .udf) = some true ∧ isCtrlWrite .rdOut = false) ∧
    (errorFlag .cmd three = false ∧ (after (.wrCtrl 0x5) three).map (errorFlag .cmd) = some true) ∧
    (let b : Block := { waiting with err_ovf := true }
     b.err_ovf = true ∧ b.out_full = true) ∧
    (let b : Block := { three with err_udf := true }
     b.err_udf = true ∧ b.out_full = false) ∧
    (let b : Block := { three with err_cmd := true }
     b.err_cmd = true ∧ b.busy = true) := by decide

theorem witness_OnlyClrErrAndResetClearErrors :
    (let b : Block := { three with err_ovf := true }
     (match step { around b with pending := [PortCycle.ofInstr (.wrCtrl 0x4)] } with
       | .next t => some (errorFlag .ovf b, errorFlag .ovf t.block)
       | _ => none) = some (true, false)) ∧ (0x5 : Word)[2] = true := by decide

theorem witness_AtMostOneErrorPerTransaction :
    (errorFlag .cmd three = false ∧ (after (.wrCtrl 0x1) three).map (errorFlag .cmd) = some true) ∧
    three.busy = true ∧ doneWaiting.out_full = true := by decide

/-- Each field changing, so each clause's hypothesis is met. -/
theorem witness_OnlyTheNamedTransactionsWriteEachField :
    ((after (.wrDim 0x00020003) three).map (·.dim_w) = some 3 ∧ three.dim_w ≠ 3) ∧
    ((after (.wrCtrl 0x1) { doneDrained with dim_w := 9 }).map (·.cfg_w) = some 9 ∧ doneDrained.cfg_w ≠ 9) ∧
    ((after (.wrPixel 0) three).map (·.x) = some 4 ∧ three.x ≠ 4) ∧
    ((after (.wrPixel 0) (running 8 1 7 0 0x7F 7 0)).map (·.out_full) = some true ∧
      (running 8 1 7 0 0x7F 7 0).out_full = false) ∧
    ((after (.wrPixel 0) (running 8 1 7 0 0x7F 7 0)).map (fun b => (b.out_data, b.busy, b.done)) =
        some (0xFF, false, true) ∧
      (running 8 1 7 0 0x7F 7 0).out_data = 0) ∧
    ((after (.wrCtrl 0x2) waiting).map (·.out_data) = some 0 ∧ waiting.out_data ≠ 0) ∧
    ((after .rdOut waiting).map (·.out_full) = some false ∧ waiting.out_full = true) ∧
    ((after (.wrPixel 0) waiting).map (·.err_ovf) = some true ∧ waiting.err_ovf = false) ∧
    ((after .rdOut three).map (·.err_udf) = some true ∧ three.err_udf = false) ∧
    ((after (.wrCtrl 0x1) three).map (·.err_cmd) = some true ∧ three.err_cmd = false) ∧
    (after (.wrCtrl 0x4) { three with err_ovf := true, err_udf := true, err_cmd := true }).map
      (fun b => (b.err_ovf, b.err_udf, b.err_cmd)) = some (false, false, false) := by decide

theorem witness_BusyAndDoneChangeOnlyAsStated :
    ((after (.wrCtrl 0x1) doneDrained).map (·.busy) = some true ∧ doneDrained.busy = false) ∧
    ((after (.wrPixel 0) (running 8 1 7 0 0x7F 7 0)).map (·.busy) = some false ∧
      (running 8 1 7 0 0x7F 7 0).busy = true) ∧
    ((after (.wrPixel 0) (running 8 1 7 0 0x7F 7 0)).map (·.done) = some true ∧
      (running 8 1 7 0 0x7F 7 0).done = false) ∧
    ((after (.wrCtrl 0x2) doneDrained).map (·.done) = some false ∧ doneDrained.done = true) := by decide

theorem witness_EveryStepKeepsTheInvariants :
    Block.Inv three ∧ Block.Inv waiting ∧ Block.Inv doneWaiting ∧ Block.Inv doneZeroArea ∧
    (match step { around three with pending := [PortCycle.ofInstr (.wrPixel 0)] } with
      | .next t => some t.block.x
      | _ => none) = some 4 := ⟨by decide, by decide, by decide, by decide, by decide⟩

theorem witness_RunningFrameNeverSeesDim :
    Block.sameButDim three { three with dim_w := 3, dim_h := 2 } ∧ (0x2 : Word)[0] = false ∧
    Instr.wrPixel 0 ≠ .rdDim ∧ Instr.wrPixel 0 ≠ .rdLen := ⟨rfl, by decide⟩

theorem witness_NothingOfAnEarlierFrameIsSeen :
    (0x3 : Word)[0] = true ∧ (0x3 : Word)[1] = true ∧
    (doneDrained.busy = false ∧ doneDrained.out_full = false) ∧
    (let fresh : Block := { Block.reset with dim_w := 8, dim_h := 1 }
     fresh.busy = false ∧ fresh.out_full = false ∧ doneDrained.dim_w = fresh.dim_w ∧ doneDrained.dim_h = fresh.dim_h ∧
     doneDrained.err_ovf = fresh.err_ovf ∧ doneDrained.err_udf = fresh.err_udf ∧ doneDrained.err_cmd = fresh.err_cmd) := by
  decide

theorem witness_BackPressureUntilOutIsRead :
    (waiting.busy = true ∧ waiting.out_full = true ∧
      (∀ i ∈ [Instr.wrPixel 0, .rdStatus], i ≠ .rdOut) ∧
      (runHost [.wrPixel 0, .rdStatus] (around waiting)).map Prod.snd = some [0, 0x19]) ∧
    (doneWaiting.done = true ∧ doneWaiting.out_full = true) ∧ three.busy = true := by decide

theorem witness_EndedFrameIsCompleteAndRestartable :
    (doneDrained.Inv ∧ doneDrained.frameEnded ∧ (0x1 : Word)[0] = true ∧ doneDrained.err_cmd = false) ∧
    (doneWaiting.Inv ∧ doneWaiting.done = true ∧ doneWaiting.out_full = true) :=
  ⟨⟨by decide, by decide⟩, by decide, by decide⟩

theorem witness_EncodeClosedForm : (List.replicate 18 (0 : Word)).length = 9 * 2 ∧ 1 < 2 ∧ 1 < (9 + 7) / 8 ∧ 8 < 9 := by
  decide

theorem witness_EncodeIgnoresAlpha :
    [(0x003264C8 : Word)].map (fun p => p.toNat % 2 ^ 24) = [(0xFF3264C8 : Word)].map (fun p => p.toNat % 2 ^ 24) := by
  decide

theorem witness_DatapathRefinesEncode :
    let b := running 3 2 0 0 0 0 0
    b.busy = true ∧ b.out_full = false ∧ 1 ≤ b.cfg_w.toNat ∧ 1 ≤ b.cfg_h.toNat ∧ b.x = 0 ∧ b.y = 0 ∧ b.acc = 0 ∧
    b.nbits = 0 ∧ b.count = 0 ∧ (List.replicate 6 (0 : Word)).length = b.cfg_w.toNat * b.cfg_h.toNat := by decide

theorem witness_StreamingEquivalence :
    1 ≤ 1 ∧ doneDrained.busy = false ∧ doneDrained.out_full = false ∧
    (List.replicate 6 (0 : Word)).length = (3 : Dim).toNat * (2 : Dim).toNat := by decide

/-- Program P2's frame, 3×2: complete, drained, and with no error flag. -/
theorem witness_AnyHostReadsAPrefixOfEncode :
    let s := around { Block.reset with dim_w := 3, dim_h := 2 }
    let is : List Instr := [.wrPixel 0xFF000000, .wrPixel 0xFFFFFFFF, .wrPixel 0xFF000000, .rdOut, .wrPixel 0xFFFFFFFF,
      .wrPixel 0xFF000000, .wrDim 0x00050007, .wrPixel 0xFFFFFFFF, .rdStatus, .rdOut]
    (0x1 : Word)[0] = true ∧ s.block.busy = false ∧ s.block.out_full = false ∧ (∀ i ∈ is, isCtrlWrite i = false) ∧
    (runHost (.wrCtrl 0x1 :: is) s).map Prod.snd = some [0, 0, 0, 0, 0x105, 0, 0, 0, 0, 0xA, 0x102] ∧
    (runHost (.wrCtrl 0x1 :: is) s).map (fun e => decide (e.1.block.noErrors ∧ e.1.block.frameEnded)) = some true ∧
    (pixelsOf is).length = 3 * 2 := by decide

theorem witness_FrameSequenceEncodesEachFrame :
    1 ≤ 1 ∧ doneDrained.busy = false ∧ doneDrained.out_full = false ∧
    (∀ f ∈ [[(0 : Word), 1], [2, 3]], f.length = (2 : Dim).toNat * (1 : Dim).toNat) := by decide

end Sys2Proof.Machine.Test
end

section
/-! SUPPORT and PROOF. The way from the host's bus to a register: the register at an address and at a byte offset, what
a bus access becomes (00_scope.md R8), and what the port's signals decode to (30_encoding.md R70, R74). -/

namespace Sys2Proof.Machine

/-! ### Registers, word addresses and byte offsets -/

@[simp] theorem Reg.ofAddr_addr (r : Reg) : Reg.ofAddr r.addr = r := by
  cases r <;> rfl

@[simp] theorem Reg.addr_ofAddr (a : Addr) : (Reg.ofAddr a).addr = a := by
  revert a
  decide

@[simp] theorem Reg.offset_mod_four (r : Reg) : r.offset % 4 = 0 := Nat.mul_mod_right 4 _

theorem Reg.offset_le (r : Reg) : r.offset ≤ 0x1C := by
  have h : r.addr.toNat < 2 ^ 3 := r.addr.isLt
  unfold Reg.offset
  omega

/-- The word address of a register's byte offset, `off div 4`, selects that register again. -/
@[simp] theorem Reg.ofAddr_offset (r : Reg) : Reg.ofAddr (BitVec.ofNat 3 (r.offset / 4)) = r := by
  have h : r.offset / 4 = r.addr.toNat := Nat.mul_div_cancel_left _ (by decide)
  rw [h, BitVec.ofNat_toNat, BitVec.setWidth_eq, Reg.ofAddr_addr]

/-! ### Bus accesses -/

theorem memRead_offset (r : Reg) : memRead r.offset = .ok (readOf r) := by
  simp [memRead, BusAccess.transaction, Nat.not_lt.mpr r.offset_le]

theorem memWrite_offset (r : Reg) {v : Nat} (hv : v < 2 ^ 32) :
    memWrite r.offset v = .ok (writeOf r (BitVec.ofNat 32 v)) := by
  simp [memWrite, BusAccess.transaction, Nat.not_lt.mpr r.offset_le, Nat.not_le.mpr hv,
    -Nat.reducePow]

/-- Only an aligned 32-bit access inside the window becomes a transaction (log entry 13). -/
theorem BusAccess.aligned_of_transaction_eq_ok {m : BusAccess} {i : Instr} (h : m.transaction = .ok i) :
    m.size = 4 ∧ m.off % 4 = 0 ∧ m.off ≤ 0x1C := by
  unfold BusAccess.transaction at h
  split at h
  · cases h
  split at h
  · cases h
  split at h
  · cases h
  omega

/-! ### The port's signals -/

theorem headerOf_readOf (r : Reg) : headerOf (readOf r) = BitVec.ofBool false ++ r.addr := by
  cases r <;> rfl

theorem headerOf_writeOf (r : Reg) (v : Word) : headerOf (writeOf r v) = BitVec.ofBool true ++ r.addr := by
  cases r <;> rfl

/-- A read is selected by its header alone and drops `WDATA` (30_encoding.md R71, R74). -/
theorem decode_serialise_headerOf_readOf (r : Reg) (v : Word) :
    decode (serialise (headerOf (readOf r)) v) = readOf r := by
  cases r <;> simp [decode, serialise_getElem, headerOf, readOf]

/-- A write is selected by its header alone and carries `WDATA` (30_encoding.md R72, R74). -/
theorem decode_serialise_headerOf_writeOf (r : Reg) (u v : Word) :
    decode (serialise (headerOf (writeOf r u)) v) = writeOf r v := by
  cases r <;> simp [decode, serialise_getElem, headerOf, writeOf]

theorem decode_serialisePort_read (a : Addr) (v : Word) : decode (serialisePort false a v) = readOf (Reg.ofAddr a) := by
  have h := decode_serialise_headerOf_readOf (Reg.ofAddr a) v
  rwa [headerOf_readOf, Reg.addr_ofAddr] at h

theorem decode_serialisePort_write (a : Addr) (v : Word) :
    decode (serialisePort true a v) = writeOf (Reg.ofAddr a) v := by
  have h := decode_serialise_headerOf_writeOf (Reg.ofAddr a) v v
  rwa [headerOf_writeOf, Reg.addr_ofAddr] at h

/-- Settles O6: a register's offset selects it again, the port's header is that of the register's transaction, and an
access that becomes a transaction is aligned, 32 bits wide and inside the window. -/
theorem hostBusReachesEveryRegister : Obligations.HostBusReachesEveryRegister := by
  refine ⟨fun r => ⟨memRead_offset r, fun v hv => memWrite_offset r hv⟩,
    fun a v => ⟨decode_serialisePort_read a v, decode_serialisePort_write a v⟩, ?_⟩
  intro m hbad i h
  obtain ⟨hsize, halign, hwindow⟩ := BusAccess.aligned_of_transaction_eq_ok h
  omega

end Sys2Proof.Machine
end

section
/-! SUPPORT. What a write of CTRL, a read of OUT and a pixel can do to the record: the cases of each, said once, and the
fields each never writes. -/

namespace Sys2Proof.Machine

/-- Records that agree but for the error flags have every other field in common. -/
theorem Block.sameButErrors_iff (a b : Block) :
    a.sameButErrors b ↔
      a.dim_w = b.dim_w ∧ a.dim_h = b.dim_h ∧ a.cfg_w = b.cfg_w ∧ a.cfg_h = b.cfg_h ∧ a.busy = b.busy ∧
      a.done = b.done ∧ a.acc = b.acc ∧ a.nbits = b.nbits ∧ a.x = b.x ∧ a.y = b.y ∧ a.out_data = b.out_data ∧
      a.out_full = b.out_full ∧ a.count = b.count := by
  cases a; cases b; simp [sameButErrors]

/-! ### A write of CTRL -/

/-- The record START sees in a write of CTRL: what ABORT and CLR_ERR leave (41_control_and_config.md R130). -/
def beforeStart (v : Word) (b : Block) : Block :=
  if ctrlClrErr v then clrErr (if ctrlAbort v then abort b else b) else if ctrlAbort v then abort b else b

@[simp] theorem beforeStart_dim_w (v : Word) (b : Block) : (beforeStart v b).dim_w = b.dim_w := by
  simp only [beforeStart]; split <;> split <;> rfl

@[simp] theorem beforeStart_dim_h (v : Word) (b : Block) : (beforeStart v b).dim_h = b.dim_h := by
  simp only [beforeStart]; split <;> split <;> rfl

@[simp] theorem beforeStart_cfg_w (v : Word) (b : Block) : (beforeStart v b).cfg_w = b.cfg_w := by
  simp only [beforeStart]; split <;> split <;> rfl

@[simp] theorem beforeStart_cfg_h (v : Word) (b : Block) : (beforeStart v b).cfg_h = b.cfg_h := by
  simp only [beforeStart]; split <;> split <;> rfl

@[simp] theorem beforeStart_busy (v : Word) (b : Block) : (beforeStart v b).busy = (!ctrlAbort v && b.busy) := by
  simp only [beforeStart]; split <;> split <;> simp [*]

@[simp] theorem beforeStart_done (v : Word) (b : Block) : (beforeStart v b).done = (!ctrlAbort v && b.done) := by
  simp only [beforeStart]; split <;> split <;> simp [*]

@[simp] theorem beforeStart_out_full (v : Word) (b : Block) :
    (beforeStart v b).out_full = (!ctrlAbort v && b.out_full) := by
  simp only [beforeStart]; split <;> split <;> simp [*]

@[simp] theorem beforeStart_err_ovf (v : Word) (b : Block) :
    (beforeStart v b).err_ovf = (!ctrlClrErr v && b.err_ovf) := by
  simp only [beforeStart]; split <;> split <;> simp [*]

@[simp] theorem beforeStart_err_udf (v : Word) (b : Block) :
    (beforeStart v b).err_udf = (!ctrlClrErr v && b.err_udf) := by
  simp only [beforeStart]; split <;> split <;> simp [*]

@[simp] theorem beforeStart_err_cmd (v : Word) (b : Block) :
    (beforeStart v b).err_cmd = (!ctrlClrErr v && b.err_cmd) := by
  simp only [beforeStart]; split <;> split <;> simp [*]

/-- An ABORT in the same write makes START acceptable (41_control_and_config.md R130). -/
@[simp] theorem startRefused_beforeStart (v : Word) (b : Block) :
    startRefused (beforeStart v b) = (!ctrlAbort v && startRefused b) := by
  simp [startRefused, Bool.and_or_distrib_left]

/-- Without ABORT only the error flags can differ when START runs. -/
theorem beforeStart_sameButErrors {v : Word} (b : Block) (h : ctrlAbort v = false) :
    (beforeStart v b).sameButErrors b := by
  simp only [beforeStart, h]; split <;> rfl

theorem writeCtrl_eq_start (v : Word) (b : Block) :
    writeCtrl v b = if ctrlStart v then start (beforeStart v b) else beforeStart v b := rfl

/-- A write of CTRL has no START, or its START is refused, or its START is accepted. -/
theorem writeCtrl_cases (v : Word) (b : Block) :
    (ctrlStart v = false ∧ writeCtrl v b = beforeStart v b) ∨
    (ctrlStart v = true ∧ ctrlAbort v = false ∧ startRefused b = true ∧
      writeCtrl v b = raise .cmd (beforeStart v b)) ∨
    (ctrlStart v = true ∧ (ctrlAbort v = true ∨ startRefused b = false) ∧
      writeCtrl v b = startFrame (beforeStart v b)) := by
  have heq := writeCtrl_eq_start v b
  cases hs : ctrlStart v
  · exact .inl ⟨rfl, by simp [heq, hs]⟩
  · obtain ⟨hr, h⟩ | ⟨hr, h⟩ := start_cases (beforeStart v b)
    · rw [startRefused_beforeStart, Bool.and_eq_true, Bool.not_eq_true'] at hr
      exact .inr (.inl ⟨rfl, hr.1, hr.2, by rw [heq, if_pos hs, h]⟩)
    · rw [startRefused_beforeStart, Bool.and_eq_false_iff, Bool.not_eq_false'] at hr
      exact .inr (.inr ⟨rfl, hr, by rw [heq, if_pos hs, h]⟩)

theorem writeCtrl_out_data_of_no_abort {v : Word} (b : Block) (h : ctrlAbort v = false) :
    (writeCtrl v b).out_data = b.out_data := by
  have hsame := (Block.sameButErrors_iff _ _).mp (beforeStart_sameButErrors b h)
  obtain ⟨-, hw⟩ | ⟨-, -, -, hw⟩ | ⟨-, -, hw⟩ := writeCtrl_cases v b <;> simp [hw, hsame]

@[simp] theorem writeCtrl_out_full (v : Word) (b : Block) :
    (writeCtrl v b).out_full = (!ctrlAbort v && b.out_full) := by
  obtain ⟨-, hw⟩ | ⟨-, -, -, hw⟩ | ⟨-, -, hw⟩ := writeCtrl_cases v b <;> simp [hw]

@[simp] theorem writeCtrl_err_ovf (v : Word) (b : Block) :
    (writeCtrl v b).err_ovf = (!ctrlClrErr v && b.err_ovf) := by
  obtain ⟨-, hw⟩ | ⟨-, -, -, hw⟩ | ⟨-, -, hw⟩ := writeCtrl_cases v b <;> simp [hw]

@[simp] theorem writeCtrl_err_udf (v : Word) (b : Block) :
    (writeCtrl v b).err_udf = (!ctrlClrErr v && b.err_udf) := by
  obtain ⟨-, hw⟩ | ⟨-, -, -, hw⟩ | ⟨-, -, hw⟩ := writeCtrl_cases v b <;> simp [hw]

/-- ERR_CMD after a write of CTRL: what CLR_ERR left of it, or a refused START in the same write. -/
theorem writeCtrl_err_cmd (v : Word) (b : Block) :
    (writeCtrl v b).err_cmd =
      (!ctrlClrErr v && b.err_cmd || ctrlStart v && (!ctrlAbort v && startRefused b)) := by
  rw [writeCtrl_eq_start]; cases ctrlStart v <;> simp

/-- Without ABORT and without an accepted START a write of CTRL changes error flags only. -/
theorem writeCtrl_sameButErrors {v : Word} {b : Block} (ha : ctrlAbort v = false)
    (hs : ctrlStart v = true → startRefused b = true) : (writeCtrl v b).sameButErrors b := by
  have hsame := beforeStart_sameButErrors b ha
  obtain ⟨-, hw⟩ | ⟨-, -, -, hw⟩ | ⟨h0, h1, -⟩ := writeCtrl_cases v b
  · rwa [hw]
  · rw [hw]; exact hsame
  · simp [ha, hs h0] at h1

/-- What every sub-action of CTRL keeps, a write of CTRL keeps. -/
theorem writeCtrl_keeps {P : Block → Prop} (habort : ∀ b, P b → P (abort b)) (hclr : ∀ b, P b → P (clrErr b))
    (hstart : ∀ b, P b → P (start b)) (v : Word) {b : Block} (h : P b) : P (writeCtrl v b) := by
  have h1 : P (if ctrlAbort v then abort b else b) := by split; exacts [habort b h, h]
  have h2 : P (beforeStart v b) := by unfold beforeStart; split; exacts [hclr _ h1, h1]
  rw [writeCtrl_eq_start]
  split
  exacts [hstart _ h2, h2]

/-! ### A read of OUT -/

/-- A read of OUT pops the waiting byte or raises ERR_UDF. -/
theorem popOut_cases (b : Block) :
    (b.out_full = true ∧ popOut b = { b with out_full := false }) ∨
    (b.out_full = false ∧ popOut b = raise .udf b) := by
  cases h : b.out_full
  · exact .inr ⟨rfl, popOut_of_empty b h⟩
  · exact .inl ⟨rfl, popOut_of_full b h⟩

/-! ### A write of PIXEL -/

/-- A pixel holds its bit, or fills the byte inside a row, or ends a row, or ends the frame. -/
theorem pixelStep_cases (t : TailAlign) (p : Word) (b : Block) :
    let a1 := accumulate b.acc (pixelBit p)
    let n1 := bitsAfter b
    (n1 ≠ 8 ∧ lastColumn b = false ∧ pixelStep t p b = nextColumn (holdBits a1 n1 b)) ∨
    (n1 = 8 ∧ lastColumn b = false ∧ pixelStep t p b = nextColumn (flushByte (tail t a1 n1) b)) ∨
    (lastColumn b = true ∧ lastRow b = false ∧ pixelStep t p b = nextRow (flushByte (tail t a1 n1) b)) ∨
    (lastColumn b = true ∧ lastRow b = true ∧
      pixelStep t p b = endFrame (nextRow (flushByte (tail t a1 n1) b))) := by
  intro a1 n1
  have hpack : packBit t (pixelBit p) b =
      if n1 = 8 ∨ lastColumn b = true then flushByte (tail t a1 n1) b else holdBits a1 n1 b := by
    simp [packBit, flushes, a1, n1]
  have hstep : pixelStep t p b = advance (packBit t (pixelBit p) b) := rfl
  obtain ⟨hc, h⟩ | ⟨hc, hr, h⟩ | ⟨hc, hr, h⟩ := advance_cases (packBit t (pixelBit p) b)
  · rw [packBit_lastColumn] at hc
    by_cases hn : n1 = 8
    · exact .inr (.inl ⟨hn, hc, by rw [hstep, h, hpack, if_pos (.inl hn)]⟩)
    · exact .inl ⟨hn, hc, by rw [hstep, h, hpack, if_neg (by simp [hn, hc])]⟩
  · rw [packBit_lastColumn] at hc
    rw [packBit_lastRow] at hr
    exact .inr (.inr (.inl ⟨hc, hr, by rw [hstep, h, hpack, if_pos (.inr hc)]⟩))
  · rw [packBit_lastColumn] at hc
    rw [packBit_lastRow] at hr
    exact .inr (.inr (.inr ⟨hc, hr, by rw [hstep, h, hpack, if_pos (.inr hc)]⟩))

/-- After the last row the position stands at `cfg_h`, which fits its field (10_state.md R26). -/
theorem y_succ_of_lastRow {b : Block} (h : lastRow b = true) : b.y + 1 = b.cfg_h := by
  rw [lastRow_iff] at h
  apply BitVec.eq_of_toNat_eq
  rw [BitVec.toNat_add_of_lt (by simp; omega)]
  exact h

/-- A write of PIXEL is an accepted pixel, or is dropped with ERR_OVF. -/
theorem writePixel_cases (t : TailAlign) (p : Word) (b : Block) :
    (b.busy = true ∧ b.out_full = false ∧ writePixel t p b = pixelStep t p b) ∨
    (¬(b.busy = true ∧ b.out_full = false) ∧ writePixel t p b = raise .ovf b) := by
  cases h : inReady b
  · exact .inr ⟨by simp [← inReady_iff, h], writePixel_of_not_ready t p b h⟩
  · obtain ⟨hb, ho⟩ := (inReady_iff b).mp h
    exact .inl ⟨hb, ho, writePixel_of_ready t p b h⟩

end Sys2Proof.Machine
end

section
/-! SUPPORT and PROOF. The invariants of 10_state.md R40: every operation on the record keeps them, so every step
does. -/

namespace Sys2Proof.Machine

/-! ### Arithmetic of bytes per row -/

theorem rowBytes_of_lastColumn {x w : Nat} (h : x + 1 = w) : rowBytes w = x / 8 + 1 := by
  unfold rowBytes; omega

/-- Inside a frame a byte's index is below the frame's number of bytes. -/
theorem byteIndex_lt {w h x y : Nat} (hx : x < w) (hy : y < h) : y * rowBytes w + x / 8 < h * rowBytes w := by
  have hcol : x / 8 < rowBytes w := by unfold rowBytes; omega
  calc y * rowBytes w + x / 8 < y * rowBytes w + rowBytes w := Nat.add_lt_add_left hcol _
    _ = (y + 1) * rowBytes w := (Nat.succ_mul y _).symm
    _ ≤ h * rowBytes w := Nat.mul_le_mul_right _ hy

/-- The most bytes a frame can have: 65535 rows of 8192 (10_state.md R40.7). -/
theorem frameBytes_le (w h : Dim) : h.toNat * rowBytes w.toNat ≤ 536862720 := by
  have hw : rowBytes w.toNat ≤ 8192 := by unfold rowBytes; omega
  exact Nat.mul_le_mul (show h.toNat ≤ 65535 by omega) hw

/-- With at most 7 bits held, and so in every reachable state, accumulating loses no bit (40_encoder_datapath.md
R104). -/
theorem accumulate_toNat {acc : Byte} {n : Nat} (bit : Bool) (hn : n ≤ 7) (h : acc.toNat < 2 ^ n) :
    (accumulate acc bit).toNat = 2 * acc.toNat + bit.toNat := by
  have hacc : acc.toNat < 2 ^ 7 := h.trans_le (Nat.pow_le_pow_right (by decide) hn)
  have hbit : bit.toNat < 2 ^ 1 := bit.toNat_lt
  have hshift : acc.toNat <<< 1 % 2 ^ 8 = 2 ^ 1 * acc.toNat := by rw [Nat.shiftLeft_eq]; omega
  have hset : ((BitVec.ofBool bit).setWidth 8).toNat = bit.toNat := by cases bit <;> rfl
  rw [accumulate, BitVec.toNat_or, BitVec.toNat_shiftLeft, hset, hshift, ← Nat.two_pow_add_eq_or_of_lt hbit]

theorem accumulate_lt {acc : Byte} {n : Nat} (bit : Bool) (hn : n ≤ 7) (h : acc.toNat < 2 ^ n) :
    (accumulate acc bit).toNat < 2 ^ (n + 1) := by
  have hbit := bit.toNat_lt
  rw [accumulate_toNat bit hn h, pow_succ]
  omega

/-! ### The invariants of a running and of a stopped block -/

/-- A running block meets R40 when its position is inside the frame and its counters follow the position. -/
theorem Block.inv_of_running {b : Block} (hbusy : b.busy = true) (hdone : b.done = false)
    (hx : b.x.toNat < b.cfg_w.toNat) (hy : b.y.toNat < b.cfg_h.toNat) (hbits : b.nbits.toNat = b.x.toNat % 8)
    (hacc : b.accFits) (hcount : b.countFollowsPosition) (hout : b.waitingByteCounted) : b.Inv := by
  have hlt := byteIndex_lt hx hy
  have hle := frameBytes_le b.cfg_w b.cfg_h
  refine ⟨by simp [hdone], fun _ => by omega, ⟨hbits, by simp [hbusy]⟩, hacc, hcount, by simp [hdone], ?_, hout,
    by simp [hdone]⟩
  exact ⟨by rw [hcount]; omega, hy.le⟩

/-- A block that is done has counted all the bytes of its frame, which are none for a frame without pixels. -/
theorem Block.count_of_done {b : Block} (hcount : b.countFollowsPosition) (hend : b.doneAtEnd) (hd : b.done = true) :
    b.count.toNat = b.cfg_h.toNat * rowBytes b.cfg_w.toNat := by
  obtain ⟨hx, hy, hzero⟩ := hend hd
  by_cases hz : b.cfg_w = 0 ∨ b.cfg_h = 0
  · obtain ⟨-, hc⟩ := hzero hz
    obtain hw | hh := hz
    · simp [hc, hw, rowBytes]
    · simp [hc, hh]
  · rw [hcount, hx, hy.resolve_right hz]
    simp

/-- A block that runs no frame meets R40 when its column, accumulator and bit count are 0 and, if it is done, it stands
below the frame's last row, or at row 0 of a frame without pixels. -/
theorem Block.inv_of_stopped {b : Block} (hbusy : b.busy = false) (hx : b.x = 0) (hbits : b.nbits = 0)
    (hacc : b.acc = 0) (hy : b.y.toNat ≤ b.cfg_h.toNat)
    (hcount : b.count.toNat = b.y.toNat * rowBytes b.cfg_w.toNat)
    (hzero : b.done = true → b.cfg_w = 0 ∨ b.cfg_h = 0 → b.y = 0)
    (hend : b.done = true → ¬(b.cfg_w = 0 ∨ b.cfg_h = 0) → b.y = b.cfg_h) (hout : b.waitingByteCounted) : b.Inv := by
  have hdoneAtEnd : b.doneAtEnd := by
    intro hd
    refine ⟨hx, ?_, fun hz => ⟨hzero hd hz, ?_⟩⟩
    · rw [or_iff_not_imp_right]
      exact hend hd
    · apply BitVec.eq_of_toNat_eq
      simp [hcount, hzero hd hz]
  have hbound := (Nat.mul_le_mul_right (rowBytes b.cfg_w.toNat) hy).trans (frameBytes_le b.cfg_w b.cfg_h)
  have hfollows : b.countFollowsPosition := by simpa [Block.countFollowsPosition, hx] using hcount
  refine ⟨by simp [hbusy], by simp [hbusy], by simp [Block.bitsFollowColumn, hx, hbits],
    by simp [Block.accFits, hacc, hbits], hfollows, hdoneAtEnd, ⟨by omega, hy⟩, hout,
    fun h => Block.count_of_done hfollows hdoneAtEnd h.1⟩

/-! ### Every operation keeps the invariants -/

theorem Block.inv_reset : Block.reset.Inv := by decide

theorem Block.Inv.raise {b : Block} (h : b.Inv) (e : ErrorCause) : (raise e b).Inv := by
  cases e <;> exact h

theorem Block.Inv.clrErr {b : Block} (h : b.Inv) : (clrErr b).Inv := h

theorem Block.Inv.writeDim {b : Block} (h : b.Inv) (v : Word) : (writeDim v b).Inv := h

theorem Block.inv_abort (b : Block) : (abort b).Inv := by
  exact Block.inv_of_stopped rfl rfl rfl rfl (Nat.zero_le _) (by simp) (fun _ _ => rfl) (by simp)
    (by simp [Block.waitingByteCounted])

theorem one_le_dim_of_not_zeroArea {b : Block} (h : zeroArea b = false) : 1 ≤ b.dim_w.toNat ∧ 1 ≤ b.dim_h.toNat := by
  obtain ⟨hw, hh⟩ := (zeroArea_eq_false_iff b).mp h
  exact ⟨Nat.pos_of_ne_zero (BitVec.toNat_ne_iff_ne.mpr hw), Nat.pos_of_ne_zero (BitVec.toNat_ne_iff_ne.mpr hh)⟩

/-- An accepted START makes the invariants hold, whatever the record was, since it finds no byte waiting. -/
theorem Block.inv_startFrame {b : Block} (ho : b.out_full = false) : (startFrame b).Inv := by
  have hout : (startFrame b).waitingByteCounted := by simp [Block.waitingByteCounted, ho]
  cases hz : zeroArea b
  · obtain ⟨hw, hh⟩ := one_le_dim_of_not_zeroArea hz
    exact Block.inv_of_running (by simp [hz]) hz hw hh rfl Nat.one_pos (by simp [Block.countFollowsPosition]) hout
  · have harea := (zeroArea_iff b).mp hz
    exact Block.inv_of_stopped (by simp [hz]) rfl rfl rfl (Nat.zero_le _) (by simp) (fun _ _ => rfl)
      (fun _ hne => absurd harea hne) hout

theorem Block.Inv.start {b : Block} (h : b.Inv) : (start b).Inv := by
  obtain ⟨-, hs⟩ | ⟨hr, hs⟩ := start_cases b
  · rw [hs]; exact h.raise .cmd
  · rw [hs]; exact Block.inv_startFrame ((startRefused_eq_false_iff b).mp hr).2

theorem Block.Inv.writeCtrl {b : Block} (h : b.Inv) (v : Word) : (writeCtrl v b).Inv :=
  writeCtrl_keeps (P := Block.Inv) (fun b _ => b.inv_abort) (fun _ => Block.Inv.clrErr) (fun _ => Block.Inv.start) v h

/-- Popping the last byte of a frame that is done leaves its count: `y = cfg_h` or the frame has no area. -/
theorem Block.Inv.popOut {b : Block} (h : b.Inv) : (popOut b).Inv := by
  obtain ⟨-, hp⟩ | ⟨-, hp⟩ := popOut_cases b
  · rw [hp]
    obtain ⟨hbd, hpos, hbits, hacc, hcount, hend, hbound, -, -⟩ := h
    exact ⟨hbd, hpos, hbits, hacc, hcount, hend, hbound, by simp, fun hd => Block.count_of_done hcount hend hd.1⟩
  · rw [hp]; exact h.raise .udf

/-! ### The counters do not wrap, so a pixel keeps the invariants -/

theorem Block.Inv.count_succ_toNat {b : Block} (h : b.Inv) : (b.count + 1).toNat = b.count.toNat + 1 := by
  obtain ⟨-, -, -, -, -, -, ⟨hbound, -⟩, -, -⟩ := h
  exact BitVec.toNat_add_of_lt (by simp; omega)

theorem Block.Inv.x_succ_toNat {b : Block} (h : b.Inv) (hbusy : b.busy = true) :
    (b.x + 1).toNat = b.x.toNat + 1 := by
  obtain ⟨-, hpos, -⟩ := h
  obtain ⟨-, -, hx, -⟩ := hpos hbusy
  exact BitVec.toNat_add_of_lt (by simp; omega)

theorem Block.Inv.y_succ_toNat {b : Block} (h : b.Inv) (hbusy : b.busy = true) :
    (b.y + 1).toNat = b.y.toNat + 1 := by
  obtain ⟨-, hpos, -⟩ := h
  obtain ⟨-, -, -, hy⟩ := hpos hbusy
  exact BitVec.toNat_add_of_lt (by simp; omega)

/-- An accepted pixel keeps the invariants: the column and `nbits` advance together, and a byte is counted when the
column passes a multiple of 8 or the row ends. -/
theorem Block.Inv.pixelStep {b : Block} (h : b.Inv) (t : TailAlign) (p : Word) (hbusy : b.busy = true)
    (ho : b.out_full = false) : (pixelStep t p b).Inv := by
  have hcount1 := h.count_succ_toNat
  have hx1 := h.x_succ_toNat hbusy
  have hy1 := h.y_succ_toNat hbusy
  obtain ⟨hbd, hpos, ⟨hbits, -⟩, hacc, hcount, -, -, -, -⟩ := h
  obtain ⟨hw, hh, hx, hy⟩ := hpos hbusy
  have hdone : b.done = false := by simpa [hbusy] using hbd
  have hn7 : b.nbits.toNat ≤ 7 := by omega
  unfold Block.countFollowsPosition at hcount
  obtain ⟨hn, hc, hp⟩ | ⟨hn, hc, hp⟩ | ⟨hc, hr, hp⟩ | ⟨hc, hr, hp⟩ := pixelStep_cases t p b <;> rw [hp]
  · have hc' : b.x.toNat + 1 ≠ b.cfg_w.toNat := by simpa [← lastColumn_iff] using hc
    have hn' : b.nbits.toNat + 1 < 8 := by unfold bitsAfter at hn; omega
    have hbits1 : (BitVec.ofNat 3 (bitsAfter b)).toNat = b.nbits.toNat + 1 := Nat.mod_eq_of_lt hn'
    have hfits : (accumulate b.acc (pixelBit p)).toNat < 2 ^ (BitVec.ofNat 3 (bitsAfter b)).toNat := by
      rw [hbits1]; exact accumulate_lt _ hn7 hacc
    have hcol : (b.x + 1).toNat < b.cfg_w.toNat := by omega
    have hbits' : (BitVec.ofNat 3 (bitsAfter b)).toNat = (b.x + 1).toNat % 8 := by omega
    have hcount' : b.count.toNat = b.y.toNat * rowBytes b.cfg_w.toNat + (b.x + 1).toNat / 8 := by omega
    exact Block.inv_of_running hbusy hdone hcol hy hbits' hfits hcount' (by simp [Block.waitingByteCounted, ho])
  · have hc' : b.x.toNat + 1 ≠ b.cfg_w.toNat := by simpa [← lastColumn_iff] using hc
    have hn' : b.nbits.toNat + 1 = 8 := hn
    have hcol : (b.x + 1).toNat < b.cfg_w.toNat := by omega
    have hbits' : 0 = (b.x + 1).toNat % 8 := by omega
    have hcount' : (b.count + 1).toNat = b.y.toNat * rowBytes b.cfg_w.toNat + (b.x + 1).toNat / 8 := by omega
    have hpos' : 1 ≤ (b.count + 1).toNat := by omega
    exact Block.inv_of_running hbusy hdone hcol hy hbits' (by decide : 0 < 1) hcount' fun _ => hpos'
  all_goals
    have hrow := rowBytes_of_lastColumn ((lastColumn_iff b).mp hc)
    have hpos' : 1 ≤ (b.count + 1).toNat := by omega
    have hcount' : (b.count + 1).toNat = (b.y + 1).toNat * rowBytes b.cfg_w.toNat := by
      rw [hcount1, hy1, Nat.succ_mul]; omega
  · have hr' : b.y.toNat + 1 ≠ b.cfg_h.toNat := by simpa [← lastRow_iff] using hr
    have hrow' : (b.y + 1).toNat < b.cfg_h.toNat := by omega
    exact Block.inv_of_running hbusy hdone hw hrow' rfl (by decide : 0 < 1)
      (by simpa [Block.countFollowsPosition, -BitVec.toNat_add] using hcount') fun _ => hpos'
  · have hend := y_succ_of_lastRow hr
    have harea : ¬(b.cfg_w = 0 ∨ b.cfg_h = 0) := by rintro (h | h) <;> simp [h] at hw hh
    exact Block.inv_of_stopped rfl rfl rfl rfl (congrArg BitVec.toNat hend).le hcount' (fun _ hz => absurd hz harea)
      (fun _ _ => hend) fun _ => hpos'

theorem Block.Inv.writePixel {b : Block} (h : b.Inv) (t : TailAlign) (p : Word) : (writePixel t p b).Inv := by
  obtain ⟨hb, ho, hw⟩ | ⟨-, hw⟩ := writePixel_cases t p b
  · rw [hw]; exact h.pixelStep t p hb ho
  · rw [hw]; exact h.raise .ovf

/-- No transaction leaves the invariants. -/
theorem exec_keeps_inv {i : Instr} {s t : State} (h : s.block.Inv) (he : exec i s = .next t) : t.block.Inv := by
  obtain ⟨v, -, hb⟩ | ⟨v, -, hb⟩ | ⟨v, -, hb⟩ | ⟨-, hb⟩ | ⟨-, -, -, -, hb⟩ := exec_block_cases he <;> rw [hb]
  · exact h.writeCtrl v
  · exact h.writePixel .lsbLiteral v
  · exact h.writeDim v
  · exact h.popOut
  · exact h

/-- A step resets the block, or leaves it as it is, or runs one transaction on it. -/
theorem step_block_cases {s t : State} (h : step s = .next t) :
    t.block = Block.reset ∨ t.block = s.block ∨
      ∃ i rest, exec i (s.withPending rest) = .next t := by
  cases hp : s.pending with
  | nil =>
    rw [step_of_nil hp] at h
    cases h
    exact .inr (.inl rfl)
  | cons c rest =>
    cases hr : c.rst
    · cases hs : c.sel
      · rw [step_of_no_sel hp hr hs] at h
        cases h
        exact .inr (.inl rfl)
      · exact .inr (.inr ⟨_, _, (step_of_sel hp hr hs).symm.trans h⟩)
    · rw [step_of_rst hp hr] at h
      cases h
      exact .inl rfl

/-- Settles O42: a step resets the block, leaves it, or runs a transaction, and each operation of a transaction keeps
the invariants. -/
theorem everyStepKeepsTheInvariants : Obligations.EveryStepKeepsTheInvariants := by
  intro s t hinv hstep
  obtain hb | hb | ⟨i, rest, he⟩ := step_block_cases hstep
  · rw [hb]; exact Block.inv_reset
  · rwa [hb]
  · exact exec_keeps_inv (s := s.withPending rest) hinv he

/-- Settles O41: the reset record is closed data. -/
theorem invariantsHoldAtReset : Obligations.InvariantsHoldAtReset := Block.inv_reset

/-- Settles O10: each field of the closed reset record is its literal. -/
theorem resetRecordIsAllZero : Obligations.ResetRecordIsAllZero := by
  unfold Obligations.ResetRecordIsAllZero
  decide

end Sys2Proof.Machine
end

section
/-! SUPPORT and PROOF. Which transactions may change each field of the record (10_state.md R22 to R30). -/

namespace Sys2Proof.Machine

/-! ### busy and done -/

/-- An accepted pixel changes `busy` and `done` only when it ends the frame, and then it stands at `(0, cfg_h)`. -/
theorem pixelStep_busy_done_cases (t : TailAlign) (p : Word) (b : Block) :
    ((pixelStep t p b).busy = b.busy ∧ (pixelStep t p b).done = b.done) ∨
    ((pixelStep t p b).busy = false ∧ (pixelStep t p b).done = true ∧ (pixelStep t p b).x = 0 ∧
      (pixelStep t p b).y = (pixelStep t p b).cfg_h) := by
  obtain ⟨-, -, h⟩ | ⟨-, -, h⟩ | ⟨-, -, h⟩ | ⟨-, hr, h⟩ := pixelStep_cases t p b <;> rw [h]
  · exact .inl ⟨rfl, rfl⟩
  · exact .inl ⟨rfl, rfl⟩
  · exact .inl ⟨rfl, rfl⟩
  · exact .inr ⟨rfl, rfl, rfl, y_succ_of_lastRow hr⟩

/-- A write of CTRL keeps `busy` and `done`, or ABORT clears both and no START follows, or an accepted START sets
one of them, by the area of the frame it latches. -/
theorem writeCtrl_busy_done_cases (v : Word) (b : Block) :
    ((writeCtrl v b).busy = b.busy ∧ (writeCtrl v b).done = b.done) ∨
    (ctrlAbort v = true ∧ (writeCtrl v b).busy = false ∧ (writeCtrl v b).done = false) ∨
    (ctrlStart v = true ∧ (ctrlAbort v = true ∨ b.busy = false ∧ b.out_full = false) ∧
      (writeCtrl v b).cfg_w = b.dim_w ∧ (writeCtrl v b).cfg_h = b.dim_h ∧
      (writeCtrl v b).busy = (!zeroArea b) ∧ (writeCtrl v b).done = zeroArea b) := by
  obtain ⟨-, h⟩ | ⟨-, ha, -, h⟩ | ⟨hs, hr, h⟩ := writeCtrl_cases v b <;> rw [h]
  · cases ha : ctrlAbort v
    · left; simp [ha]
    · right; left; simp [ha]
  · left; simp [ha]
  · right; right
    rw [startRefused_eq_false_iff] at hr
    refine ⟨hs, hr, ?_⟩
    simp [zeroArea]

@[simp] theorem popOut_busy (b : Block) : (popOut b).busy = b.busy := by
  obtain ⟨-, h⟩ | ⟨-, h⟩ := popOut_cases b <;> simp [h]

@[simp] theorem popOut_done (b : Block) : (popOut b).done = b.done := by
  obtain ⟨-, h⟩ | ⟨-, h⟩ := popOut_cases b <;> simp [h]

/-- What can happen to `busy` and `done`: nothing, the end of a frame, an ABORT, or an accepted START. -/
theorem exec_busy_done_cases {i : Instr} {s t : State} (h : exec i s = .next t) :
    (t.block.busy = s.block.busy ∧ t.block.done = s.block.done) ∨
    ((∃ v, i = .wrPixel v) ∧ s.block.busy = true ∧ s.block.out_full = false ∧
      t.block.busy = false ∧ t.block.done = true ∧ t.block.x = 0 ∧ t.block.y = t.block.cfg_h) ∨
    (∃ v, i = .wrCtrl v ∧ v[1] = true ∧ t.block.busy = false ∧ t.block.done = false) ∨
    (∃ v, i = .wrCtrl v ∧ v[0] = true ∧ (v[1] = true ∨ s.block.busy = false ∧ s.block.out_full = false) ∧
      t.block.cfg_w = s.block.dim_w ∧ t.block.cfg_h = s.block.dim_h ∧
      t.block.busy = (!zeroArea s.block) ∧ t.block.done = zeroArea s.block) := by
  obtain ⟨v, rfl, hb⟩ | ⟨v, rfl, hb⟩ | ⟨v, rfl, hb⟩ | ⟨rfl, hb⟩ | ⟨-, -, -, -, hb⟩ := exec_block_cases h <;> rw [hb]
  · obtain hsame | ⟨ha, hab⟩ | ⟨hs, hst⟩ := writeCtrl_busy_done_cases v s.block
    · exact .inl hsame
    · exact .inr (.inr (.inl ⟨v, rfl, ha, hab⟩))
    · exact .inr (.inr (.inr ⟨v, rfl, hs, hst⟩))
  · obtain ⟨hbusy, ho, hw⟩ | ⟨-, hw⟩ := writePixel_cases .lsbLiteral v s.block <;> rw [hw]
    · obtain hsame | hend := pixelStep_busy_done_cases .lsbLiteral v s.block
      · exact .inl hsame
      · exact .inr (.inl ⟨⟨v, rfl⟩, hbusy, ho, hend⟩)
    · exact .inl ⟨raise_busy .ovf _, raise_done .ovf _⟩
  · exact .inl ⟨rfl, rfl⟩
  · exact .inl ⟨popOut_busy _, popOut_done _⟩
  · exact .inl ⟨rfl, rfl⟩

/-- Settles O40: each clause by what can happen to the two fields. -/
theorem busyAndDoneChangeOnlyAsStated : Obligations.BusyAndDoneChangeOnlyAsStated := by
  intro i s t h
  obtain ⟨hbusy, hdone⟩ | ⟨hi, hs, -, hbusy, hdone, hx, hy⟩ | ⟨v, hi, hv, hbusy, hdone⟩ |
    ⟨v, hi, hv, hacc, hw, hh, hbusy, hdone⟩ := exec_busy_done_cases h
  · rw [hbusy, hdone]
    simp +contextual
  · exact ⟨by simp [hs], fun _ _ => .inl ⟨hi, hdone, hy, hx⟩, fun _ _ => .inl ⟨hi, hs, hbusy, hy⟩, by simp [hdone]⟩
  · exact ⟨by simp [hbusy], fun _ _ => .inr ⟨v, hi, hv⟩, by simp [hdone], fun _ _ => ⟨v, hi, .inr hv⟩⟩
  · have hstart : ∃ v, i = .wrCtrl v ∧ v[0] = true := ⟨v, hi, hv⟩
    refine ⟨fun _ hb => ⟨hstart, ?_⟩, fun hb _ => .inr ⟨v, hi, hacc.resolve_right (by simp [hb])⟩,
      fun _ hd => .inr ⟨hstart, ?_⟩, fun _ _ => ⟨v, hi, .inl hv⟩⟩
    · rw [hbusy, Bool.not_eq_true'] at hb
      rw [hw, hh]
      exact one_le_dim_of_not_zeroArea hb
    · rw [hdone, zeroArea_iff] at hd
      rwa [hw, hh]

/-! ### The other fields -/

/-- A write of CTRL changes the latched dimensions only by an accepted START, which takes them from DIM. -/
theorem writeCtrl_cfg_cases (v : Word) (b : Block) :
    ((writeCtrl v b).cfg_w = b.cfg_w ∧ (writeCtrl v b).cfg_h = b.cfg_h) ∨
    (ctrlStart v = true ∧ (ctrlAbort v = true ∨ b.busy = false ∧ b.out_full = false) ∧
      (writeCtrl v b).cfg_w = b.dim_w ∧ (writeCtrl v b).cfg_h = b.dim_h) := by
  obtain ⟨-, h⟩ | ⟨-, -, -, h⟩ | ⟨hs, hr, h⟩ := writeCtrl_cases v b <;> rw [h]
  · left; simp
  · left; simp
  · rw [startRefused_eq_false_iff] at hr
    exact .inr ⟨hs, hr, by simp⟩

/-- A write of CTRL that changes more than error flags aborts or has its START accepted. -/
theorem abort_or_accepted_of_writeCtrl {v : Word} {b : Block} (h : ¬(writeCtrl v b).sameButErrors b) :
    ctrlAbort v = true ∨ ctrlStart v = true ∧ b.busy = false ∧ b.out_full = false := by
  by_contra hno
  rw [not_or, Bool.not_eq_true, ← startRefused_eq_false_iff] at hno
  obtain ⟨ha, hs⟩ := hno
  exact h (writeCtrl_sameButErrors ha fun h0 => by simpa [h0] using hs)

theorem abort_of_writeCtrl_out_data {v : Word} {b : Block} (h : (writeCtrl v b).out_data ≠ b.out_data) :
    ctrlAbort v = true := by
  by_contra ha
  exact h (writeCtrl_out_data_of_no_abort b (Bool.eq_false_of_not_eq_true ha))

theorem abort_of_writeCtrl_out_full {v : Word} {b : Block} (h : (writeCtrl v b).out_full ≠ b.out_full) :
    ctrlAbort v = true := by
  by_contra ha
  exact h (by simp [ha])

theorem clrErr_of_writeCtrl_err_ovf {v : Word} {b : Block} (h : (writeCtrl v b).err_ovf ≠ b.err_ovf) :
    ctrlClrErr v = true := by
  by_contra hc
  exact h (by simp [hc])

theorem clrErr_of_writeCtrl_err_udf {v : Word} {b : Block} (h : (writeCtrl v b).err_udf ≠ b.err_udf) :
    ctrlClrErr v = true := by
  by_contra hc
  exact h (by simp [hc])

theorem clrErr_or_refused_of_writeCtrl_err_cmd {v : Word} {b : Block} (h : (writeCtrl v b).err_cmd ≠ b.err_cmd) :
    ctrlClrErr v = true ∨ ctrlStart v = true ∧ ctrlAbort v = false ∧ (b.busy = true ∨ b.out_full = true) ∧
      (writeCtrl v b).err_cmd = true := by
  rw [writeCtrl_err_cmd] at h ⊢
  rw [← startRefused_iff]
  cases hc : ctrlClrErr v
  · right; simp_all
  · exact .inl rfl

/-- Settles O39, by the four transactions that write the record: a write of CTRL clause by clause, and for each case of
a pixel, of a write of DIM and of a read of OUT the fields that case leaves alone. -/
theorem onlyTheNamedTransactionsWriteEachField : Obligations.OnlyTheNamedTransactionsWriteEachField := by
  intro i s t h
  obtain ⟨v, rfl, hb⟩ | ⟨v, rfl, hb⟩ | ⟨v, rfl, hb⟩ | ⟨rfl, hb⟩ | ⟨-, -, -, -, hb⟩ := exec_block_cases h <;> rw [hb]
  · have hmoves := @abort_or_accepted_of_writeCtrl v s.block
    rw [Block.sameButErrors_iff] at hmoves
    refine ⟨by simp, fun hne => ?_, fun hne => .inr ⟨v, rfl, hmoves (by grind)⟩,
      fun hne => .inr ⟨v, rfl, hmoves (by grind)⟩, fun hne => .inr ⟨v, rfl, abort_of_writeCtrl_out_data hne⟩,
      by simp +contextual,
      fun h0 h1 => .inr ⟨v, rfl, abort_of_writeCtrl_out_full fun heq =>
        Bool.false_ne_true (h0.symm.trans (heq.trans h1))⟩,
      fun hne => .inr ⟨v, rfl, clrErr_of_writeCtrl_err_ovf hne⟩,
      fun hne => .inr ⟨v, rfl, clrErr_of_writeCtrl_err_udf hne⟩,
      fun hne => ⟨v, rfl, clrErr_or_refused_of_writeCtrl_err_cmd hne⟩⟩
    obtain ⟨hw, hh⟩ | ⟨hs, hr, hcfg⟩ := writeCtrl_cfg_cases v s.block
    · simp [hw, hh] at hne
    · exact ⟨⟨v, rfl, hs, hr⟩, hcfg⟩
  · obtain ⟨hbusy, ho, hw⟩ | ⟨hno, hw⟩ := writePixel_cases .lsbLiteral v s.block <;> rw [hw]
    · obtain ⟨-, -, h⟩ | ⟨-, -, h⟩ | ⟨-, -, h⟩ | ⟨-, -, h⟩ := pixelStep_cases .lsbLiteral v s.block <;>
        simp [h, hbusy, ho]
    · simp +contextual [hno]
  · simp +contextual
  · obtain ⟨hfull, hp⟩ | ⟨hfull, hp⟩ := popOut_cases s.block <;> simp [hp, hfull]
  · simp +contextual

end Sys2Proof.Machine
end

section
/-! SUPPORT and PROOF. The port (20_memory.md R51, R56, R59): what a driven cycle decodes to, the effect of a
transaction as a function of the record alone, and a run of pending transactions. -/

namespace Sys2Proof.Machine

/-! ### A driven transaction decodes to itself -/

/-- Every transaction is the read or the write of one register (30_encoding.md R74). -/
theorem exists_eq_readOf_or_writeOf (i : Instr) : (∃ r, i = readOf r) ∨ ∃ r v, i = writeOf r v := by
  cases i with
  | rdCtrl => exact .inl ⟨.ctrl, rfl⟩
  | rdStatus => exact .inl ⟨.status, rfl⟩
  | rdDim => exact .inl ⟨.dim, rfl⟩
  | rdPixel => exact .inl ⟨.pixel, rfl⟩
  | rdOut => exact .inl ⟨.out, rfl⟩
  | rdLen => exact .inl ⟨.len, rfl⟩
  | rdPos => exact .inl ⟨.pos, rfl⟩
  | rdCount => exact .inl ⟨.count, rfl⟩
  | wrCtrl v => exact .inr ⟨.ctrl, v, rfl⟩
  | wrStatus v => exact .inr ⟨.status, v, rfl⟩
  | wrDim v => exact .inr ⟨.dim, v, rfl⟩
  | wrPixel v => exact .inr ⟨.pixel, v, rfl⟩
  | wrOut v => exact .inr ⟨.out, v, rfl⟩
  | wrLen v => exact .inr ⟨.len, v, rfl⟩
  | wrPos v => exact .inr ⟨.pos, v, rfl⟩
  | wrCount v => exact .inr ⟨.count, v, rfl⟩

theorem operandOf_writeOf (r : Reg) (v : Word) : operandOf (writeOf r v) = v := by
  cases r <;> rfl

theorem decode_encode (i : Instr) : decode (encode i) = i := by
  obtain ⟨r, rfl⟩ | ⟨r, v, rfl⟩ := exists_eq_readOf_or_writeOf i
  · exact decode_serialise_headerOf_readOf r _
  · rw [encode, operandOf_writeOf]
    exact decode_serialise_headerOf_writeOf r v v

/-- The cycle that drives a word carries that word (30_encoding.md R70). -/
@[simp] theorem PortCycle.word_ofWord (t : TWord) : (PortCycle.ofWord t).word = t := by
  have hwe : BitVec.ofBool t[35] = t.extractLsb' 35 1 := by
    apply BitVec.eq_of_getLsbD_eq
    intro k hk
    obtain rfl : k = 0 := by omega
    simp
  calc (PortCycle.ofWord t).word
      = (BitVec.ofBool t[35] ++ t.extractLsb' 32 3) ++ t.extractLsb' 0 32 := rfl
    _ = t.extractLsb' 32 4 ++ t.extractLsb' 0 32 := by
      rw [hwe, BitVec.extractLsb'_append_extractLsb'_eq_extractLsb' (show 35 = 32 + 3 from rfl)]
    _ = t.extractLsb' 0 36 := BitVec.extractLsb'_append_extractLsb'_eq_extractLsb' rfl
    _ = t := BitVec.extractLsb'_eq_self

theorem step_of_ofInstr {s : State} {i : Instr} {rest : List PortCycle}
    (h : s.pending = PortCycle.ofInstr i :: rest) : step s = exec i (s.withPending rest) := by
  rw [step_of_sel h rfl rfl, PortCycle.ofInstr, PortCycle.word_ofWord, decode_encode]

/-- Settles O7: a selected cycle runs what its word decodes to. -/
theorem stepRunsDecodedTransaction : Obligations.StepRunsDecodedTransaction := by
  rintro s c rest i hp hr hs - rfl
  exact step_of_sel hp hr hs

/-- Settles O8: a cycle that is not selected, and no cycle, are both the idle cycle. -/
theorem idleCycleChangesNothing : Obligations.IdleCycleChangesNothing :=
  ⟨fun _ _ _ => step_of_no_sel, fun _ => step_of_nil⟩

/-! ### A run of pending transactions -/

/-- No transaction stops the machine (30_encoding.md R75). -/
theorem exists_exec_eq_next (i : Instr) (s : State) : ∃ t, exec i s = .next t := by
  cases i <;> exact ⟨_, rfl⟩

/-- What a transaction does is the same whatever is pending behind it. -/
theorem exec_withPending {i : Instr} {s t : State} (h : exec i s = .next t) (cs : List PortCycle) :
    exec i (s.withPending cs) = .next (t.withPending cs) := by
  cases i <;> (injection h with h; subst h; rfl)

theorem core_run_succ_of_step {s t : State} (n : Nat) (h : step s = .next t) :
    Host.Core.run core (n + 1) s = Host.Core.run core n t := by
  have hcore : core.step s = .next t := h
  simp only [Host.Core.run, hcore]

/-- Settles O12, by induction on the transactions: a step takes the oldest driven transaction off the port and does
what the host's transaction does, whatever is pending behind it. -/
theorem portSerialisesTransactions : Obligations.PortSerialisesTransactions := by
  intro is
  induction is with
  | nil => exact fun s => ⟨s, [], rfl, rfl, rfl⟩
  | cons i is ih =>
    intro s
    obtain ⟨t, hexec⟩ := exists_exec_eq_next i s
    obtain ⟨u, rs, hhost, hlen, hrun⟩ := ih t
    have hstep : step (s.withPending ((i :: is).map PortCycle.ofInstr ++ s.pending)) =
        .next (t.withPending (is.map PortCycle.ofInstr ++ t.pending)) := by
      rw [exec_pending hexec]
      exact (step_of_ofInstr rfl).trans (exec_withPending hexec _)
    exact ⟨u, t.rdata :: rs, (runHost_cons_iff ..).mpr ⟨t, rs, hexec, hhost, rfl⟩, congrArg (· + 1) hlen,
      (core_run_succ_of_step is.length hstep).trans hrun⟩

end Sys2Proof.Machine
end

section
/-! SUPPORT and PROOF. Side effects of reads, and writes done twice (20_memory.md R55). -/

namespace Sys2Proof.Machine

/-- A read of a register other than OUT keeps the record. -/
theorem exec_readOf {r : Reg} (h : r ≠ .out) (s : State) : exec (readOf r) s = .next (s.read r) := by
  cases r
  case out => exact absurd rfl h
  all_goals rfl

/-- A read of OUT changes OUT_VALID or ERR_UDF, unless OUT is empty and ERR_UDF already set. -/
theorem popOut_ne_self {b : Block} (h : b.out_full = true ∨ b.err_udf = false) : popOut b ≠ b := by
  intro heq
  obtain ⟨hfull, hp⟩ | ⟨hempty, hp⟩ := popOut_cases b
  · have hkept : false = b.out_full := congrArg Block.out_full (hp.symm.trans heq)
    simp [hfull] at hkept
  · have hkept : true = b.err_udf := congrArg Block.err_udf (hp.symm.trans heq)
    simp [h.resolve_left (by simp [hempty])] at hkept

@[simp] theorem writeDim_writeDim (v w : Word) (b : Block) : writeDim v (writeDim w b) = writeDim v b := rfl

/-- The record of a block out of reset with an 8×1 frame programmed. -/
def programmed8x1 : Block := writeDim 0x00010008 Block.reset

/-- Settles O34. A second START is refused with ERR_CMD, and a second pixel moves to the next column: the writes of CTRL
and of PIXEL that are not idempotent are those of an 8×1 frame. -/
theorem onlyReadsOfOutHaveASideEffect : Obligations.OnlyReadsOfOutHaveASideEffect := by
  refine ⟨fun r s hr => ⟨readValue r s.block, exec_readOf hr s, exec_readOf hr _⟩,
    fun s hs => ⟨_, exec_rdOut s, popOut_ne_self hs⟩,
    fun v s => ⟨_, exec_wrDim v s, exec_wrDim v _⟩, ?_,
    ⟨State.reset.write programmed8x1, _, _, exec_wrCtrl .., exec_wrCtrl .., by decide⟩,
    ⟨0, State.reset.write (startFrame programmed8x1), _, _, exec_wrPixel .., exec_wrPixel .., by decide⟩⟩
  rintro r v s (rfl | rfl | rfl | rfl | rfl)
  · exact ⟨_, exec_wrStatus v s, rfl⟩
  · exact ⟨_, exec_wrOut v s, rfl⟩
  · exact ⟨_, exec_wrLen v s, rfl⟩
  · exact ⟨_, exec_wrPos v s, rfl⟩
  · exact ⟨_, exec_wrCount v s, rfl⟩

end Sys2Proof.Machine
end

section
/-! SUPPORT and PROOF. DIM and a running frame (20_memory.md R60): every operation but START commutes with a write of
DIM, and every register but DIM and LEN reads the same after it. -/

namespace Sys2Proof.Machine

/-! ### Two records that agree but for DIM are one write of DIM apart -/

@[simp] theorem dimWidth_dimOperand (w h : Dim) : dimWidth (dimOperand w h) = w := BitVec.extractLsb'_append_eq_right

@[simp] theorem dimHeight_dimOperand (w h : Dim) : dimHeight (dimOperand w h) = h := BitVec.extractLsb'_append_eq_left

theorem Block.sameButDim_writeDim (v : Word) (b : Block) : b.sameButDim (writeDim v b) := rfl

theorem Block.sameButDim_iff_exists_writeDim (a b : Block) : a.sameButDim b ↔ ∃ v, b = writeDim v a := by
  constructor
  · intro h
    exact ⟨dimOperand b.dim_w b.dim_h, by rw [writeDim, dimWidth_dimOperand, dimHeight_dimOperand]; exact h.symm⟩
  · rintro ⟨v, rfl⟩
    exact a.sameButDim_writeDim v

/-! ### Operations that commute with a write of DIM -/

theorem readValue_writeDim {r : Reg} (hdim : r ≠ .dim) (hlen : r ≠ .len) (v : Word) (b : Block) :
    readValue r (writeDim v b) = readValue r b := by
  cases r
  case dim => exact absurd rfl hdim
  case len => exact absurd rfl hlen
  all_goals rfl

theorem raise_writeDim (e : ErrorCause) (v : Word) (b : Block) : raise e (writeDim v b) = writeDim v (raise e b) := by
  cases e <;> rfl

theorem beforeStart_writeDim (c v : Word) (b : Block) :
    beforeStart c (writeDim v b) = writeDim v (beforeStart c b) := by
  unfold beforeStart
  cases ctrlClrErr c <;> cases ctrlAbort c <;> rfl

theorem writeCtrl_writeDim {c : Word} (hstart : ctrlStart c = false) (v : Word) (b : Block) :
    writeCtrl c (writeDim v b) = writeDim v (writeCtrl c b) := by
  simp [writeCtrl_eq_start, hstart, beforeStart_writeDim]

theorem popOut_writeDim (v : Word) (b : Block) : popOut (writeDim v b) = writeDim v (popOut b) := by
  have hfull : (writeDim v b).out_full = b.out_full := rfl
  unfold popOut
  rw [hfull, apply_ite (writeDim v), raise_writeDim]
  rfl

theorem packBit_writeDim (t : TailAlign) (bit : Bool) (v : Word) (b : Block) :
    packBit t bit (writeDim v b) = writeDim v (packBit t bit b) := by
  have hflush : flushes (writeDim v b) = flushes b := rfl
  unfold packBit
  rw [hflush, apply_ite (writeDim v)]
  rfl

theorem advance_writeDim (v : Word) (b : Block) : advance (writeDim v b) = writeDim v (advance b) := by
  have hcolumn : lastColumn (writeDim v b) = lastColumn b := rfl
  have hrow : lastRow (writeDim v b) = lastRow b := rfl
  unfold advance
  rw [hcolumn, hrow, apply_ite (writeDim v), apply_ite (writeDim v)]
  rfl

/-- The datapath works with the latched dimensions, so DIM passes through a pixel. -/
theorem pixelStep_writeDim (t : TailAlign) (p v : Word) (b : Block) :
    pixelStep t p (writeDim v b) = writeDim v (pixelStep t p b) := by
  rw [pixelStep, packBit_writeDim, advance_writeDim, pixelStep]

theorem writePixel_writeDim (t : TailAlign) (p v : Word) (b : Block) :
    writePixel t p (writeDim v b) = writeDim v (writePixel t p b) := by
  have hready : inReady (writeDim v b) = inReady b := rfl
  cases h : inReady b
  · rw [writePixel_of_not_ready t p _ (hready.trans h), writePixel_of_not_ready t p b h, raise_writeDim]
  · rw [writePixel_of_ready t p _ (hready.trans h), writePixel_of_ready t p b h, pixelStep_writeDim]

/-! ### A transaction on two records that agree but for DIM -/

/-- An operation that commutes with a write of DIM takes records that agree but for DIM to such records. -/
theorem Block.sameButDim.map {a b : Block} (h : a.sameButDim b) {f : Block → Block}
    (hf : ∀ v b, f (Machine.writeDim v b) = Machine.writeDim v (f b)) : (f a).sameButDim (f b) := by
  obtain ⟨v, rfl⟩ := (sameButDim_iff_exists_writeDim a b).mp h
  rw [hf]
  exact (f a).sameButDim_writeDim v

theorem Block.sameButDim.writeDim {a b : Block} (h : a.sameButDim b) (v : Word) :
    (writeDim v a).sameButDim (writeDim v b) := by
  obtain ⟨w, rfl⟩ := (sameButDim_iff_exists_writeDim a b).mp h
  exact (Machine.writeDim v a).sameButDim_writeDim v

theorem Block.sameButDim.readValue_eq {a b : Block} (h : a.sameButDim b) {r : Reg} (hdim : r ≠ .dim)
    (hlen : r ≠ .len) : readValue r a = readValue r b := by
  obtain ⟨v, rfl⟩ := (sameButDim_iff_exists_writeDim a b).mp h
  exact (readValue_writeDim hdim hlen v a).symm

/-- Settles O43: the registers read but DIM and LEN do not show it, and every operation run on the record but START
commutes with a write of DIM. -/
theorem runningFrameNeverSeesDim : Obligations.RunningFrameNeverSeesDim := by
  intro i a b hab hstart hdim hlen
  have hread (r : Reg) (h1 : r ≠ .dim) (h2 : r ≠ .len) : (a.read r).rdata = (b.read r).rdata := hab.readValue_eq h1 h2
  cases i with
  | rdDim => exact absurd rfl hdim
  | rdLen => exact absurd rfl hlen
  | rdCtrl | rdStatus | rdPixel | rdPos | rdCount =>
    exact ⟨_, _, rfl, rfl, hread _ (by decide) (by decide), hab⟩
  | rdOut =>
    exact ⟨_, _, exec_rdOut a, exec_rdOut b, hread .out (by decide) (by decide), hab.map popOut_writeDim⟩
  | wrCtrl v =>
    exact ⟨_, _, exec_wrCtrl v a, exec_wrCtrl v b, rfl, hab.map (writeCtrl_writeDim (hstart v rfl))⟩
  | wrPixel v =>
    exact ⟨_, _, exec_wrPixel v a, exec_wrPixel v b, rfl, hab.map (writePixel_writeDim .lsbLiteral v)⟩
  | wrDim v => exact ⟨_, _, exec_wrDim v a, exec_wrDim v b, rfl, hab.writeDim v⟩
  | wrStatus | wrOut | wrLen | wrPos | wrCount => exact ⟨_, _, rfl, rfl, rfl, hab⟩

end Sys2Proof.Machine
end

section
/-! SUPPORT and PROOF. The encoder as the layout of the port's signals (30_encoding.md R70, R71), the assembler's lines
as numbers (R77, R78), and the step that always answers (R75). -/

namespace Sys2Proof.Machine

/-! ### The layout of a serialised word -/

theorem serialise_eq_or (h : BitVec 4) (v : Word) : serialise h v = h.setWidth 36 <<< 32 ||| v.setWidth 36 :=
  (BitVec.setWidth_eq _).symm.trans BitVec.setWidth_append_eq_shiftLeft_setWidth_or

theorem serialisePort_eq_or (we : Bool) (addr : Addr) (v : Word) :
    serialisePort we addr v =
      (BitVec.ofBool we).setWidth 36 <<< 35 ||| addr.setWidth 36 <<< 32 ||| v.setWidth 36 :=
  (BitVec.setWidth_eq _).symm.trans BitVec.setWidth_append_append_eq_shiftLeft_setWidth_or

/-- The table's mask clears `WDATA` (30_encoding.md R74). -/
theorem serialisePort_and_mask (we : Bool) (addr : Addr) (v : Word) :
    serialisePort we addr v &&& 0xF00000000 = serialisePort we addr 0 :=
  Laws.TableMatch.serialise_and_mask _ v

@[simp] theorem serialisePort_getElem_we (we : Bool) (addr : Addr) (v : Word) : (serialisePort we addr v)[35] = we := by
  have hwe : (BitVec.ofBool we ++ addr).getLsbD 3 = we := by rw [BitVec.getLsbD_append]; simp
  exact (serialise_getElem _ v 35 (by decide)).trans hwe

/-- Every 36-bit word is made of the port's signals. -/
theorem exists_eq_serialisePort (t : TWord) : ∃ we addr v, t = serialisePort we addr v :=
  ⟨_, _, _, (PortCycle.word_ofWord t).symm⟩

/-! ### The encoder -/

theorem encode_readOf (r : Reg) : encode (readOf r) = serialisePort false r.addr 0 := by
  cases r <;> rfl

theorem encode_writeOf (r : Reg) (v : Word) : encode (writeOf r v) = serialisePort true r.addr v := by
  rw [encode, headerOf_writeOf, operandOf_writeOf, serialisePort]

/-- Settles O3: an instruction is the read or the write of a register, and its header selects it back. -/
theorem decodeOfEncodeIsTheInstruction : Obligations.DecodeOfEncodeIsTheInstruction :=
  fun i _ => decode_encode i

/-- Settles O4: a word is made of the port's signals, and `WE` says whether `WDATA` is kept. -/
theorem encodeOfDecodeIsCanonical : Obligations.EncodeOfDecodeIsCanonical := by
  intro t
  obtain ⟨we, addr, v, rfl⟩ := exists_eq_serialisePort t
  rw [serialisePort_getElem_we, serialisePort_and_mask]
  cases we with
  | false => rw [decode_serialisePort_read, encode_readOf, Reg.addr_ofAddr]; rfl
  | true => rw [decode_serialisePort_write, encode_writeOf, Reg.addr_ofAddr]; rfl

/-! ### The assembler -/

theorem assemble_of_wellFormed {a : Asm} (h : a.wellFormed = true) : assemble a = some a.expand := if_pos h

theorem assemble_eq_none_iff (a : Asm) : assemble a = none ↔ ¬a.wellFormed = true := by
  simp [assemble]

theorem Asm.wellFormed_wr_iff (r : Reg) (v : Nat) : (Asm.wr r v).wellFormed = true ↔ v < 2 ^ 32 := decide_eq_true_iff

theorem Asm.wellFormed_setDim_iff (w h : Nat) :
    (Asm.setDim w h).wellFormed = true ↔ w ≤ 65535 ∧ h ≤ 65535 := by
  simp [Asm.wellFormed]

theorem Asm.wellFormed_push_iff (r g b : Nat) :
    (Asm.push r g b).wellFormed = true ↔ r ≤ 255 ∧ g ≤ 255 ∧ b ≤ 255 := by
  simp [Asm.wellFormed, and_assoc]

theorem Asm.wellFormed_pushA_iff (r g b a : Nat) :
    (Asm.pushA r g b a).wellFormed = true ↔ r ≤ 255 ∧ g ≤ 255 ∧ b ≤ 255 ∧ a ≤ 255 := by
  simp [Asm.wellFormed, and_assoc]

/-- A field that stands above a number that fits below it, as R78 writes its expansions. -/
theorem shiftLeft_or_eq_add {n b : Nat} (hb : b < 2 ^ n) (a : Nat) : a <<< n ||| b = a * 2 ^ n + b := by
  rw [← Nat.shiftLeft_add_eq_or_of_lt hb, Nat.shiftLeft_eq]

/-- The word of a SETDIM line: its two numbers do not overlap (30_encoding.md R78). -/
theorem setDim_word_toNat {w h : Nat} (hw : w ≤ 65535) (hh : h ≤ 65535) :
    (BitVec.ofNat 32 (h <<< 16 ||| w)).toNat = h * 2 ^ 16 + w := by
  rw [shiftLeft_or_eq_add (by omega), BitVec.toNat_ofNat]
  exact Nat.mod_eq_of_lt (by omega)

/-- The four channels of a pixel word do not overlap (30_encoding.md R78). -/
theorem pixelWord_toNat {r g b a : Nat} (hr : r ≤ 255) (hg : g ≤ 255) (hb : b ≤ 255) (ha : a ≤ 255) :
    (pixelWord r g b a).toNat = a * 2 ^ 24 + b * 2 ^ 16 + g * 2 ^ 8 + r := by
  rw [pixelWord, Nat.or_assoc, Nat.or_assoc, shiftLeft_or_eq_add (n := 8) (by omega),
    shiftLeft_or_eq_add (n := 16) (by omega), shiftLeft_or_eq_add (n := 24) (by omega), BitVec.toNat_ofNat,
    Nat.mod_eq_of_lt (by omega)]
  omega

theorem encode_wrDim_toNat (v : Word) : (encode (.wrDim v)).toNat = 0xA * 2 ^ 32 + v.toNat := serialise_toNat 0xA v

theorem encode_wrPixel_toNat (v : Word) : (encode (.wrPixel v)).toNat = 0xB * 2 ^ 32 + v.toNat := serialise_toNat 0xB v

theorem encode_wrPixel_pixelWord_toNat {r g b a : Nat} (hr : r ≤ 255) (hg : g ≤ 255) (hb : b ≤ 255) (ha : a ≤ 255) :
    (encode (.wrPixel (pixelWord r g b a))).toNat = 0xB * 2 ^ 32 + a * 2 ^ 24 + b * 2 ^ 16 + g * 2 ^ 8 + r := by
  rw [encode_wrPixel_toNat, pixelWord_toNat hr hg hb ha]
  omega

/-- Settles O5: a line whose numbers fit is its expansion, whose fields do not overlap in the word; any other line is
not well formed. PUSH is PUSHA with alpha 0xFF. -/
theorem pseudoInstructionsExpand : Obligations.PseudoInstructionsExpand := by
  refine ⟨rfl, rfl, rfl, rfl, rfl, rfl, ?setDim, ?noSetDim, ?push, ?noPush, ?pushA, ?noPushA, fun _ => rfl,
    ?wr, ?noWr⟩
  case setDim =>
    intro w h hw hh
    refine ⟨_, assemble_of_wellFormed ((Asm.wellFormed_setDim_iff w h).mpr ⟨hw, hh⟩), ?_⟩
    rw [Asm.expand, encode_wrDim_toNat, setDim_word_toNat hw hh, Nat.add_assoc]
  case noSetDim =>
    intro w h hbad
    rw [assemble_eq_none_iff, Asm.wellFormed_setDim_iff]
    omega
  case push =>
    intro r g b hr hg hb
    exact ⟨_, assemble_of_wellFormed ((Asm.wellFormed_push_iff r g b).mpr ⟨hr, hg, hb⟩),
      encode_wrPixel_pixelWord_toNat hr hg hb le_rfl⟩
  case noPush =>
    intro r g b hbad
    rw [assemble_eq_none_iff, Asm.wellFormed_push_iff]
    omega
  case pushA =>
    intro r g b a hr hg hb ha
    exact ⟨_, assemble_of_wellFormed ((Asm.wellFormed_pushA_iff r g b a).mpr ⟨hr, hg, hb, ha⟩),
      encode_wrPixel_pixelWord_toNat hr hg hb ha⟩
  case noPushA =>
    intro r g b a hbad
    rw [assemble_eq_none_iff, Asm.wellFormed_pushA_iff]
    omega
  case wr =>
    exact fun r v hv => assemble_of_wellFormed ((Asm.wellFormed_wr_iff r v).mpr hv)
  case noWr =>
    intro r v hbad
    rw [assemble_eq_none_iff, Asm.wellFormed_wr_iff]
    exact Nat.not_lt.mpr hbad

/-! ### Written words and headers -/

/-- Settles O1: each word is closed data. -/
theorem writtenWordsDecode : Obligations.WrittenWordsDecode := by
  unfold Obligations.WrittenWordsDecode
  decide

/-- Settles O2: the layout is the concatenation's, and each header is that of a register's read or write. -/
theorem headerSelectsTransaction : Obligations.HeaderSelectsTransaction := by
  refine ⟨serialisePort_eq_or, ?mask, ?headers, rfl, rfl, rfl, rfl, rfl, rfl, rfl, rfl⟩
  case mask =>
    intro h v
    calc serialise h v &&& 0xF00000000
        = serialise h 0 := Laws.TableMatch.serialise_and_mask h v
      _ = h.setWidth 36 <<< 32 ||| (0#32).setWidth 36 := serialise_eq_or h 0
      _ = h.setWidth 36 <<< 32 := BitVec.or_zero
  case headers =>
    exact fun v => ⟨decode_serialisePort_read 0 v, decode_serialisePort_read 1 v,
      decode_serialisePort_read 2 v, decode_serialisePort_read 3 v,
      decode_serialisePort_read 4 v, decode_serialisePort_read 5 v,
      decode_serialisePort_read 6 v, decode_serialisePort_read 7 v,
      decode_serialisePort_write 0 v, decode_serialisePort_write 1 v,
      decode_serialisePort_write 2 v, decode_serialisePort_write 3 v,
      decode_serialisePort_write 4 v, decode_serialisePort_write 5 v,
      decode_serialisePort_write 6 v, decode_serialisePort_write 7 v⟩

/-! ### Every step answers -/

/-- Settles O11: with no cycle pending, in a reset, in a transaction and in an idle cycle alike, the oldest cycle is
taken and no transaction touches those behind it. -/
theorem everyStepAnswersANextState : Obligations.EveryStepAnswersANextState := by
  intro s
  cases hp : s.pending with
  | nil => exact ⟨_, step_of_nil hp, hp⟩
  | cons c rest =>
    cases hr : c.rst with
    | true => exact ⟨_, step_of_rst hp hr, rfl⟩
    | false =>
      cases hs : c.sel with
      | true =>
        obtain ⟨t, ht⟩ := exists_exec_eq_next (decode c.word) (s.withPending rest)
        exact ⟨t, (step_of_sel hp hr hs).trans ht, exec_pending ht⟩
      | false => exact ⟨_, step_of_no_sel hp hr hs, rfl⟩

end Sys2Proof.Machine
end

section
/-! SUPPORT and PROOF. One pixel: the bit of its word (40_encoder_datapath.md R100 to R102), the bits packed into a byte
(R104 to R106), and the whole effect of an accepted pixel (R107 to R110). -/

namespace Sys2Proof.Machine

/-! ### The bit of a pixel word -/

theorem pixelR_toNat (p : Word) : (pixelR p).toNat = p.toNat % 256 := by
  simp [pixelR]

theorem pixelG_toNat (p : Word) : (pixelG p).toNat = p.toNat / 256 % 256 := by
  simp [pixelG, Nat.shiftRight_eq_div_pow]

theorem pixelB_toNat (p : Word) : (pixelB p).toNat = p.toNat / 65536 % 256 := by
  simp [pixelB, Nat.shiftRight_eq_div_pow]

/-- The bit of a pixel word, over the natural numbers (40_encoder_datapath.md R102). -/
theorem pixelBit_iff (p : Word) :
    pixelBit p = true ↔
      30 * (p.toNat % 256) + 59 * (p.toNat / 256 % 256) + 11 * (p.toNat / 65536 % 256) < 12800 := by
  rw [← pixelR_toNat, ← pixelG_toNat, ← pixelB_toNat]
  exact decide_eq_true_iff

/-- The bit reads bits 23:0 only. -/
theorem pixelBit_congr {p q : Word} (h : p.toNat % 2 ^ 24 = q.toNat % 2 ^ 24) : pixelBit p = pixelBit q := by
  have hr : p.toNat % 256 = q.toNat % 256 := by omega
  have hg : p.toNat / 256 % 256 = q.toNat / 256 % 256 := by omega
  have hb : p.toNat / 65536 % 256 = q.toNat / 65536 % 256 := by omega
  rw [Bool.eq_iff_iff, pixelBit_iff, pixelBit_iff, hr, hg, hb]

/-- Of a pixel word a write of PIXEL reads the bit only. -/
theorem exec_wrPixel_congr {p q : Word} (h : pixelBit p = pixelBit q) (s : State) :
    exec (.wrPixel p) s = exec (.wrPixel q) s := by
  simp only [exec_wrPixel, writePixel, pixelStep, h]

/-- Settles O30: the channels are bits 23:0, and the block reads nothing of the word but the bit they give. -/
theorem alphaNeverMatters : Obligations.AlphaNeverMatters :=
  ⟨fun p => ⟨pixelR_toNat p, pixelG_toNat p, pixelB_toNat p⟩,
    fun _ _ s h => ⟨pixelBit_congr h, exec_wrPixel_congr (pixelBit_congr h) s⟩⟩

theorem luma_le (r g b : Byte) : luma r g b ≤ 25500 := by
  have hr := r.isLt
  have hg := g.isLt
  have hb := b.isLt
  simp only [luma, Config.weightR, Config.weightG, Config.weightB]
  omega

/-- The source's comparison over the rationals is the block's over the integers, since the weights are hundredths. -/
theorem luminance_lt_iff (r g b : ℕ) :
    (30 / 100 : ℚ) * r + (59 / 100 : ℚ) * g + (11 / 100 : ℚ) * b < 128 ↔ 30 * r + 59 * g + 11 * b < 12800 := by
  have hscale : (30 / 100 : ℚ) * r + (59 / 100 : ℚ) * g + (11 / 100 : ℚ) * b =
      ((30 * r + 59 * g + 11 * b : ℕ) : ℚ) / 100 := by
    push_cast; ring
  rw [hscale, div_lt_iff₀ (by norm_num)]
  norm_num
  exact_mod_cast Iff.rfl

/-- The read values of a 1×1 frame depend on its pixel's bit only, so one pixel of each bit shows them. -/
theorem runHost_single_pixel (p : Word) :
    (runHost [.wrDim 0x00010001, .wrCtrl 0x1, .wrPixel p, .rdOut] State.reset).map Prod.snd =
      some [0, 0, 0, if pixelBit p then 0x00000101 else 0x00000100] := by
  have hcongr (q : Word) (h : pixelBit p = pixelBit q) :
      runHost [.wrDim 0x00010001, .wrCtrl 0x1, .wrPixel p, .rdOut] State.reset =
        runHost [.wrDim 0x00010001, .wrCtrl 0x1, .wrPixel q, .rdOut] State.reset := by
    simp only [runHost, transact, exec_wrPixel_congr h]
  cases hbit : pixelBit p
  · rw [hcongr 0xFFFFFF hbit]; decide
  · rw [hcongr 0 hbit]; decide

/-- Settles O31: the weighted sum is 100 times the source's luminance, and it grows with every channel. -/
theorem thresholdIsExact : Obligations.ThresholdIsExact := by
  refine ⟨fun r g b => ⟨rfl, luma_le r g b⟩, fun p => (pixelBit_iff p).trans (luminance_lt_iff _ _ _).symm, ?_,
    runHost_single_pixel, by decide, by decide⟩
  intro p q hr hg hb hq
  rw [pixelBit_iff] at hq ⊢
  omega

/-! ### Bits packed into a byte -/

/-- Settles O32. -/
theorem accumulateKeepsEveryBit : Obligations.AccumulateKeepsEveryBit :=
  fun _ bit _ hn h => ⟨accumulate_toNat bit hn h, accumulate_lt bit hn h⟩

@[simp] theorem tail_lsbLiteral (a : Byte) (n : Nat) : tail .lsbLiteral a n = a := ite_self a

@[simp] theorem tail_eight (t : TailAlign) (a : Byte) : tail t a 8 = a := rfl

/-- Under MSB_PADDED `n` bits are moved to the top of the byte, and none is lost. -/
theorem tail_msbPadded_toNat {a : Byte} {n : Nat} (hn : n ≤ 8) (h : a.toNat < 2 ^ n) :
    (tail .msbPadded a n).toNat = a.toNat * 2 ^ (8 - n) := by
  have hshift : tail .msbPadded a n = a <<< (8 - n) := by
    by_cases h8 : n = 8
    · subst h8; simp
    · simp [tail, h8]
  have hlt : a.toNat * 2 ^ (8 - n) < 2 ^ 8 := by
    calc a.toNat * 2 ^ (8 - n) < 2 ^ n * 2 ^ (8 - n) := Nat.mul_lt_mul_of_pos_right h (by positivity)
      _ = 2 ^ 8 := by rw [← pow_add, Nat.add_sub_cancel' hn]
  rw [hshift, BitVec.toNat_shiftLeft, Nat.shiftLeft_eq, Nat.mod_eq_of_lt hlt]

/-- Settles O33: LSB_LITERAL leaves the accumulator, MSB_PADDED shifts it up, and a full byte has no room to shift. -/
theorem tailByteValue : Obligations.TailByteValue := by
  refine ⟨rfl, fun a n _ hn h => ⟨tail_lsbLiteral a n, tail_msbPadded_toNat hn h, ?_⟩, by decide, by decide⟩
  rintro rfl
  exact tail_eight .msbPadded a

/-! ### The whole effect of an accepted pixel -/

/-- An accepted pixel's state, by the datapath alone. -/
theorem exec_wrPixel_of_ready (v : Word) {s : State} (hbusy : s.block.busy = true) (ho : s.block.out_full = false) :
    exec (.wrPixel v) s = .next (s.write (pixelStep .lsbLiteral v s.block)) := by
  rw [exec_wrPixel, writePixel_of_ready _ _ _ ((inReady_iff _).mpr ⟨hbusy, ho⟩)]

theorem toNat_pixelBit (v : Word) : (pixelBit v).toNat =
    if 30 * (v.toNat % 256) + 59 * (v.toNat / 256 % 256) + 11 * (v.toNat / 65536 % 256) < 12800 then 1 else 0 := by
  rw [← if_congr (pixelBit_iff v) rfl rfl]
  cases pixelBit v <;> rfl

/-- The bits held after a pixel that does not fill the byte fit the 3-bit counter. -/
theorem bitsAfter_toNat {b : Block} (h : bitsAfter b ≠ 8) :
    (BitVec.ofNat 3 (bitsAfter b)).toNat = b.nbits.toNat + 1 := by
  have hlt : b.nbits.toNat < 8 := b.nbits.isLt
  unfold bitsAfter at h ⊢
  rw [BitVec.toNat_ofNat, Nat.mod_eq_of_lt (by omega)]

/-- The last pixel of the frame flushes and ends it. -/
theorem pixelStep_of_frameEnd (t : TailAlign) (p : Word) {b : Block} (hc : lastColumn b = true)
    (hr : lastRow b = true) : pixelStep t p b =
      endFrame (nextRow (flushByte (tail t (accumulate b.acc (pixelBit p)) (bitsAfter b)) b)) := by
  have hpack : packBit t (pixelBit p) b = flushByte (tail t (accumulate b.acc (pixelBit p)) (bitsAfter b)) b :=
    if_pos (by simp [flushes, hc])
  rw [pixelStep, advance, packBit_lastColumn, packBit_lastRow, if_pos hc, if_pos hr, hpack]

/-- Settles O27, by the four cases of a pixel; under the invariants no counter wraps. -/
theorem acceptedPixelEffect : Obligations.AcceptedPixelEffect := by
  constructor
  · intro v s hinv hbusy ho b luminance a1 n1 last flush frameEnd
    have hcount1 : (b.count + 1).toNat = b.count.toNat + 1 := hinv.count_succ_toNat
    have hx1 : (b.x + 1).toNat = b.x.toNat + 1 := hinv.x_succ_toNat hbusy
    have hy1 : (b.y + 1).toNat = b.y.toNat + 1 := hinv.y_succ_toNat hbusy
    obtain ⟨-, -, -, hacc, -⟩ := hinv
    have hn7 : b.nbits.toNat ≤ 7 := by omega
    have ha1 : (accumulate b.acc (pixelBit v)).toNat = a1 := by
      rw [accumulate_toNat _ hn7 hacc, toNat_pixelBit]
    have hlt : a1 < 256 := ha1 ▸ BitVec.isLt _
    have hlast : lastColumn b = true ↔ last := lastColumn_iff b
    have hrow : lastRow b = true ↔ b.y.toNat + 1 = b.cfg_h.toNat := lastRow_iff b
    have hbusy' : b.busy = true := hbusy
    have ho' : b.out_full = false := ho
    refine ⟨_, exec_wrPixel_of_ready v hbusy ho, rfl, rfl, hlt, ?_⟩
    rw [State.write_block]
    obtain ⟨hn, hc, hp⟩ | ⟨hn, hc, hp⟩ | ⟨hc, hr, hp⟩ | ⟨hc, hr, hp⟩ := pixelStep_cases .lsbLiteral v b <;> rw [hp]
    · have hno : ¬last := by simp [← hlast, hc]
      have hhold : ¬flush := not_or.mpr ⟨hn, hno⟩
      have hgo : ¬frameEnd := fun h => hno h.1
      simpa [hno, hhold, hgo, ha1, hbusy', ho', n1, bitsAfter_toNat hn, -BitVec.toNat_add, -BitVec.toNat_ofNat]
        using hx1
    · have hno : ¬last := by simp [← hlast, hc]
      have hflush : flush := .inl hn
      have hgo : ¬frameEnd := fun h => hno h.1
      simpa [hno, hflush, hgo, ha1, hbusy', -BitVec.toNat_add] using And.intro hcount1 hx1
    · have hyes : last := hlast.mp hc
      have hflush : flush := .inr hyes
      have hgo : ¬frameEnd := by simp [frameEnd, ← hrow, hr]
      simpa [hyes, hflush, hgo, ha1, hbusy', -BitVec.toNat_add] using And.intro hcount1 hy1
    · have hyes : last := hlast.mp hc
      have hflush : flush := .inr hyes
      have hend : frameEnd := ⟨hyes, hrow.mp hr⟩
      simpa [hyes, hflush, hend, ha1, -BitVec.toNat_add] using And.intro hcount1 hy1
  · intro s hbusy ho hw hh hacc hn hx hy
    refine ⟨_, exec_wrPixel_of_ready 0xFF000000 hbusy ho, ?_⟩
    have hc : lastColumn s.block = true := by simp [lastColumn_iff, hx, hw]
    have hr : lastRow s.block = true := by simp [lastRow_iff, hy, hh]
    have hbyte : accumulate 0x7F (pixelBit 0xFF000000) = 0xFF := by decide
    rw [State.write_block, pixelStep_of_frameEnd _ _ hc hr]
    simpa [hacc, hy] using hbyte

/-- After an accepted pixel a byte waits exactly when it was flushed. -/
theorem pixelStep_out_full (t : TailAlign) (p : Word) {b : Block} (ho : b.out_full = false) :
    (pixelStep t p b).out_full = flushes b := by
  rw [pixelStep, advance_out_full]
  obtain ⟨hf, h⟩ | ⟨hf, h⟩ := packBit_cases t (pixelBit p) b <;> simp [h, hf, ho]

/-- An accepted pixel counts the byte it flushes. -/
theorem pixelStep_count_toNat {b : Block} (h : b.Inv) (t : TailAlign) (p : Word) :
    (pixelStep t p b).count.toNat = b.count.toNat + if flushes b = true then 1 else 0 := by
  have hcount1 := h.count_succ_toNat
  rw [pixelStep, advance_count]
  obtain ⟨hf, hp⟩ | ⟨hf, hp⟩ := packBit_cases t (pixelBit p) b
  · simpa [hp, hf, -BitVec.toNat_add] using hcount1
  · simp [hp, hf]

/-- Settles O28: a pixel that neither fills its byte nor ends its row holds its bit; every other flushes one byte. -/
theorem flushExactlyAtByteOrRowEnd : Obligations.FlushExactlyAtByteOrRowEnd := by
  intro v s hinv hbusy ho
  have hcount := pixelStep_count_toNat hinv .lsbLiteral v
  obtain ⟨-, hpos, ⟨hbits, -⟩, -⟩ := hinv
  obtain ⟨hw, -, -, -⟩ := hpos hbusy
  refine ⟨hw, _, exec_wrPixel_of_ready v hbusy ho, ?_⟩
  rw [State.write_block, hcount, pixelStep_out_full _ _ ho]
  exact ⟨by rw [flushes_iff]; omega, by rw [flushes_iff]; omega, rfl⟩

end Sys2Proof.Machine
end

section
/-! SUPPORT and PROOF. What is left of an earlier frame after an accepted START is the byte in `out_data` alone
(40_encoder_datapath.md R114), and no transaction shows it while OUT is empty (93_implementation_defined.md U6). -/

namespace Sys2Proof.Machine

/-- The record with another byte in `out_data`. -/
def Block.withOutData (b : Block) (d : Byte) : Block := { b with out_data := d }

/-- Two records a host cannot tell apart: they are equal, or OUT is empty and they agree but for `out_data`. -/
def Block.sameToHost (a b : Block) : Prop := a = b ∨ b.out_full = false ∧ ∃ d, a = b.withOutData d

theorem Block.sameToHost_withOutData {b : Block} (h : b.out_full = false) (d : Byte) :
    (b.withOutData d).sameToHost b := .inr ⟨h, d, rfl⟩

/-- An operation keeps records alike when what it does with an empty OUT does not depend on `out_data`. -/
theorem Block.sameToHost.map {a b : Block} (h : a.sameToHost b) {f : Block → Block}
    (hf : ∀ d b, b.out_full = false → (f (b.withOutData d)).sameToHost (f b)) : (f a).sameToHost (f b) := by
  obtain rfl | ⟨ho, d, rfl⟩ := h
  · exact .inl rfl
  · exact hf d b ho

theorem Block.sameToHost.readValue_eq {a b : Block} (h : a.sameToHost b) (r : Reg) :
    readValue r a = readValue r b := by
  obtain rfl | ⟨ho, d, rfl⟩ := h
  · rfl
  · cases r
    case out => exact (outWord_of_empty (b.withOutData d) ho).trans (outWord_of_empty b ho).symm
    all_goals rfl

/-! ### Every operation keeps records alike -/

theorem Block.sameToHost.writeDim {a b : Block} (h : a.sameToHost b) (v : Word) :
    (writeDim v a).sameToHost (writeDim v b) :=
  h.map fun d b ho => sameToHost_withOutData (b := Machine.writeDim v b) ho d

theorem Block.sameToHost.raise {a b : Block} (h : a.sameToHost b) (e : ErrorCause) :
    (raise e a).sameToHost (raise e b) :=
  h.map fun d b ho => .inr ⟨by simpa using ho, d, by cases e <;> rfl⟩

theorem Block.sameToHost.abort {a b : Block} (h : a.sameToHost b) : (abort a).sameToHost (abort b) :=
  h.map fun _ _ _ => .inl rfl

theorem Block.sameToHost.clrErr {a b : Block} (h : a.sameToHost b) : (clrErr a).sameToHost (clrErr b) :=
  h.map fun d b ho => sameToHost_withOutData (b := Machine.clrErr b) ho d

theorem Block.sameToHost.start {a b : Block} (h : a.sameToHost b) : (start a).sameToHost (start b) := by
  refine h.map fun d b ho => ?_
  have hr : startRefused (b.withOutData d) = startRefused b := rfl
  unfold Machine.start
  rw [hr]
  split
  · exact (sameToHost_withOutData ho d).raise .cmd
  · exact sameToHost_withOutData (b := startFrame b) ho d

theorem Block.sameToHost.writeCtrl {a b : Block} (h : a.sameToHost b) (v : Word) :
    (writeCtrl v a).sameToHost (writeCtrl v b) := by
  have habort : (if ctrlAbort v then Machine.abort a else a).sameToHost
      (if ctrlAbort v then Machine.abort b else b) := by
    split
    exacts [h.abort, h]
  have hbefore : (beforeStart v a).sameToHost (beforeStart v b) := by
    unfold beforeStart
    split
    exacts [habort.clrErr, habort]
  rw [writeCtrl_eq_start, writeCtrl_eq_start]
  split
  exacts [hbefore.start, hbefore]

theorem Block.sameToHost.popOut {a b : Block} (h : a.sameToHost b) : (popOut a).sameToHost (popOut b) := by
  refine h.map fun d b ho => ?_
  rw [popOut_of_empty b ho, popOut_of_empty (b.withOutData d) ho]
  exact (sameToHost_withOutData ho d).raise .udf

theorem Block.sameToHost.advance {a b : Block} (h : a.sameToHost b) : (advance a).sameToHost (advance b) := by
  refine h.map fun d b ho => .inr ⟨by simpa using ho, d, ?_⟩
  have hcolumn : lastColumn (b.withOutData d) = lastColumn b := rfl
  have hrow : lastRow (b.withOutData d) = lastRow b := rfl
  unfold Machine.advance
  rw [hcolumn, hrow]
  cases lastColumn b <;> cases lastRow b <;> rfl

/-- A flush overwrites `out_data`, and a held bit leaves it in an OUT that is still empty. -/
theorem Block.sameToHost.packBit {a b : Block} (h : a.sameToHost b) (t : TailAlign) (bit : Bool) :
    (packBit t bit a).sameToHost (packBit t bit b) := by
  refine h.map fun d b ho => ?_
  have hflush : flushes (b.withOutData d) = flushes b := rfl
  unfold Machine.packBit
  rw [hflush]
  split
  · exact .inl rfl
  · exact sameToHost_withOutData (b := holdBits (accumulate b.acc bit) (bitsAfter b) b) ho d

theorem Block.sameToHost.writePixel {a b : Block} (h : a.sameToHost b) (t : TailAlign) (p : Word) :
    (writePixel t p a).sameToHost (writePixel t p b) := by
  refine h.map fun d b ho => ?_
  have hready : inReady (b.withOutData d) = inReady b := rfl
  unfold Machine.writePixel
  rw [hready]
  split
  · exact ((sameToHost_withOutData ho d).packBit t (pixelBit p)).advance
  · exact (sameToHost_withOutData ho d).raise .ovf

/-! ### Every run keeps records alike and shows the same values -/

theorem exec_sameToHost (i : Instr) {a b : State} (h : a.block.sameToHost b.block) :
    ∃ t u, exec i a = .next t ∧ exec i b = .next u ∧ t.rdata = u.rdata ∧ t.block.sameToHost u.block := by
  have hread (r : Reg) : (a.read r).rdata = (b.read r).rdata := h.readValue_eq r
  cases i with
  | rdCtrl | rdStatus | rdDim | rdPixel | rdLen | rdPos | rdCount => exact ⟨_, _, rfl, rfl, hread _, h⟩
  | rdOut => exact ⟨_, _, exec_rdOut a, exec_rdOut b, hread .out, h.popOut⟩
  | wrCtrl v => exact ⟨_, _, exec_wrCtrl v a, exec_wrCtrl v b, rfl, h.writeCtrl v⟩
  | wrPixel v => exact ⟨_, _, exec_wrPixel v a, exec_wrPixel v b, rfl, h.writePixel .lsbLiteral v⟩
  | wrDim v => exact ⟨_, _, exec_wrDim v a, exec_wrDim v b, rfl, h.writeDim v⟩
  | wrStatus | wrOut | wrLen | wrPos | wrCount => exact ⟨_, _, rfl, rfl, rfl, h⟩

theorem runHost_sameToHost (is : List Instr) : ∀ {a b : State}, a.block.sameToHost b.block →
    ∃ t u rs, runHost is a = some (t, rs) ∧ runHost is b = some (u, rs) := by
  induction is with
  | nil => exact fun {a b} _ => ⟨a, b, [], rfl, rfl⟩
  | cons i is ih =>
    intro a b h
    obtain ⟨t, u, hta, hub, hrdata, hblock⟩ := exec_sameToHost i h
    obtain ⟨t', u', rs, ht', hu'⟩ := ih hblock
    exact ⟨t', u', t.rdata :: rs, (runHost_cons_iff ..).mpr ⟨t, rs, hta, ht', rfl⟩,
      (runHost_cons_iff ..).mpr ⟨u, rs, hub, hu', by rw [hrdata]⟩⟩

/-! ### An accepted START -/

/-- A write of CTRL whose START is accepted is that START on what ABORT and CLR_ERR leave. -/
theorem writeCtrl_of_accepted {v : Word} {b : Block} (hs : v[0] = true)
    (hacc : v[1] = true ∨ b.busy = false ∧ b.out_full = false) :
    writeCtrl v b = startFrame (beforeStart v b) := by
  obtain ⟨hns, -⟩ | ⟨-, hna, hr, -⟩ | ⟨-, -, h⟩ := writeCtrl_cases v b
  · exact absurd (hns.symm.trans hs) Bool.false_ne_true
  · rw [startRefused_iff] at hr
    obtain ha | ⟨hb, ho⟩ := hacc
    · exact absurd (hna.symm.trans ha) Bool.false_ne_true
    · simp [hb, ho] at hr
  · exact h

theorem beforeStart_out_full_of_accepted {v : Word} {b : Block}
    (hacc : v[1] = true ∨ b.busy = false ∧ b.out_full = false) : (beforeStart v b).out_full = false := by
  obtain ha | ⟨-, ho⟩ := hacc
  · rw [beforeStart_out_full, show ctrlAbort v = true from ha]; rfl
  · rw [beforeStart_out_full, ho, Bool.and_false]

/-- An accepted START gives every field from DIM, the error flags and constants, but `out_data`. -/
theorem startFrame_sameToHost {a b : Block} (hw : a.dim_w = b.dim_w) (hh : a.dim_h = b.dim_h)
    (hovf : a.err_ovf = b.err_ovf) (hudf : a.err_udf = b.err_udf) (hcmd : a.err_cmd = b.err_cmd)
    (ha : a.out_full = false) (hb : b.out_full = false) : (startFrame a).sameToHost (startFrame b) := by
  refine .inr ⟨hb, a.out_data, ?_⟩
  have hzero : zeroArea a = zeroArea b := by simp [zeroArea, hw, hh]
  simp [startFrame, Block.withOutData, hw, hh, hovf, hudf, hcmd, ha, hb, hzero]

/-- Settles O44: the two accepted STARTs leave records alike to the host, and every transaction keeps them so. -/
theorem nothingOfAnEarlierFrameIsSeen : Obligations.NothingOfAnEarlierFrameIsSeen := by
  intro a b v is hs hacca haccb hw hh hovf hudf hcmd
  have hsame : (writeCtrl v a.block).sameToHost (writeCtrl v b.block) := by
    rw [writeCtrl_of_accepted hs hacca, writeCtrl_of_accepted hs haccb]
    exact startFrame_sameToHost (by simp [hw]) (by simp [hh]) (by simp [hovf]) (by simp [hudf]) (by simp [hcmd])
      (beforeStart_out_full_of_accepted hacca) (beforeStart_out_full_of_accepted haccb)
  obtain ⟨t, u, rs, ht, hu⟩ := runHost_sameToHost is (a := a.write (writeCtrl v a.block))
    (b := b.write (writeCtrl v b.block)) hsame
  exact ⟨t, u, 0 :: rs, (runHost_cons_iff ..).mpr ⟨_, rs, exec_wrCtrl v a, ht, rfl⟩,
    (runHost_cons_iff ..).mpr ⟨_, rs, exec_wrCtrl v b, hu, rfl⟩⟩

end Sys2Proof.Machine
end

section
/-! SUPPORT and PROOF. The reference function `encode` (40_encoder_datapath.md R111): its rows one after the other, the
number of its bytes (R113), each byte as the packed bits of its chunk of a row (R112), and what of a pixel it reads
(R114). -/

namespace Sys2Proof.Machine

/-! ### Rows -/

theorem rowPixels_length (w : Nat) (ps : List Word) (y : Nat) : (rowPixels w ps y).length = w := by
  simp [rowPixels]

theorem rowPixels_zero {w : Nat} {ps : List Word} (h : w ≤ ps.length) : rowPixels w ps 0 = ps.take w := by
  apply List.ext_getElem (by simp [rowPixels, h])
  intro x hx hx'
  have hlt : x < ps.length := by simp at hx'; omega
  simp [rowPixels, pixelAt, hlt]

theorem rowPixels_succ (w : Nat) (ps : List Word) (y : Nat) :
    rowPixels w ps (y + 1) = rowPixels w (ps.drop w) y := by
  have hat (x : Nat) : pixelAt w ps x (y + 1) = pixelAt w (ps.drop w) x y := by
    simp only [pixelAt, List.getD_eq_getElem?_getD, List.getElem?_drop]
    congr 2
    ring
  simp only [rowPixels, hat]

/-- `encode` of one row more is that row's bytes before those of the rest (40_encoder_datapath.md R111). -/
theorem encodeBytes_succ (t : TailAlign) {w : Nat} (h : Nat) {ps : List Word} (hlen : w ≤ ps.length) :
    encodeBytes t w (h + 1) ps = packRow t w 0 0 0 (ps.take w) ++ encodeBytes t w h (ps.drop w) := by
  simp only [encodeBytes, List.range_succ_eq_map, List.flatMap_cons, List.flatMap_map, rowPixels_zero hlen,
    rowPixels_succ]

/-! ### The number of bytes -/

/-- A row gives the bytes its columns from `x` on still complete. -/
theorem packRow_length (t : TailAlign) {w : Nat} (ps : List Word) : ∀ {x n : Nat} {acc : Byte}, x < w →
    x + ps.length = w → n = x % 8 → (packRow t w x acc n ps).length + x / 8 = rowBytes w := by
  induction ps with
  | nil => intro x n acc hx hlen; simp at hlen; omega
  | cons p ps ih =>
    intro x n acc hx hlen hn
    rw [List.length_cons] at hlen
    by_cases hlast : x + 1 = w
    · have hnil : ps = [] := List.eq_nil_of_length_eq_zero (by omega)
      rw [packRow, if_pos (.inr hlast), hnil, rowBytes_of_lastColumn hlast]
      simp [packRow]
      omega
    · by_cases h8 : n + 1 = 8
      · have hrest := ih (x := x + 1) (n := 0) (acc := 0) (by omega) (by omega) (by omega)
        rw [packRow, if_pos (.inl h8), List.length_cons]
        omega
      · have hrest := ih (x := x + 1) (n := n + 1) (acc := accumulate acc (pixelBit p)) (by omega) (by omega) (by omega)
        rw [packRow, if_neg (by simp [h8, hlast])]
        omega

/-- A whole row gives `ceil(w / 8)` bytes. -/
theorem packRow_row_length (t : TailAlign) {w : Nat} {ps : List Word} (h : ps.length = w) :
    (packRow t w 0 0 0 ps).length = rowBytes w := by
  obtain rfl | hw := Nat.eq_zero_or_pos w
  · rw [List.eq_nil_of_length_eq_zero h]; rfl
  · simpa using packRow_length t ps (acc := 0) hw (by omega) rfl

theorem encodeBytes_length (t : TailAlign) (w h : Nat) (ps : List Word) :
    (encodeBytes t w h ps).length = h * rowBytes w := by
  have hrow (y : Nat) : (packRow t w 0 0 0 (rowPixels w ps y)).length = rowBytes w :=
    packRow_row_length t (rowPixels_length w ps y)
  simp only [encodeBytes, List.length_flatMap, hrow, List.map_const', List.length_range, List.sum_replicate,
    smul_eq_mul]

/-- Settles O47: each row gives `ceil(w / 8)` bytes. -/
theorem byteCountLaw : Obligations.ByteCountLaw := encodeBytes_length

/-! ### What `encode` reads of a pixel -/

/-- Packing reads the bits of the pixels only. -/
theorem packRow_congr (t : TailAlign) (w : Nat) {ps : List Word} : ∀ {qs : List Word} (x : Nat) (acc : Byte) (n : Nat),
    ps.map pixelBit = qs.map pixelBit → packRow t w x acc n ps = packRow t w x acc n qs := by
  induction ps with
  | nil => intro qs x acc n h; rw [List.map_eq_nil_iff.mp h.symm]
  | cons p ps ih =>
    intro qs x acc n h
    cases qs with
    | nil => cases h
    | cons q qs =>
      obtain ⟨hbit, hrest⟩ := List.cons_eq_cons.mp h
      simp only [packRow, hbit, ih _ _ _ hrest]

theorem map_pixelBit_rowPixels (w : Nat) (ps : List Word) (y : Nat) :
    (rowPixels w ps y).map pixelBit =
      (List.range w).map fun x => (ps.map pixelBit).getD (y * w + x) (pixelBit 0) := by
  simp only [rowPixels, pixelAt, List.map_map, List.getD_map]
  rfl

/-- `encode` reads the bits of the pixels only. -/
theorem encodeBytes_congr (t : TailAlign) (w h : Nat) {ps qs : List Word} (hbits : ps.map pixelBit = qs.map pixelBit) :
    encodeBytes t w h ps = encodeBytes t w h qs := by
  have hrow (y : Nat) : packRow t w 0 0 0 (rowPixels w ps y) = packRow t w 0 0 0 (rowPixels w qs y) :=
    packRow_congr t w 0 0 0 (by rw [map_pixelBit_rowPixels, map_pixelBit_rowPixels, hbits])
  simp only [encodeBytes, hrow]

/-- Settles O49: words equal in bits 23:0 have the same bit. -/
theorem encodeIgnoresAlpha : Obligations.EncodeIgnoresAlpha := by
  intro t w h ps qs heq
  refine encodeBytes_congr t w h ?_
  rw [← List.forall₂_eq_eq_eq, List.forall₂_map_left_iff, List.forall₂_map_right_iff] at heq ⊢
  exact heq.imp fun _ _ => pixelBit_congr

/-! ### The bits of a chunk -/

/-- The pixels' bits shifted one after the other into `acc` (40_encoder_datapath.md R104). -/
def packBits (acc : Byte) (ps : List Word) : Byte := ps.foldl (fun a p => accumulate a (pixelBit p)) acc

theorem packBits_concat (acc : Byte) (ps : List Word) (p : Word) :
    packBits acc (ps ++ [p]) = accumulate (packBits acc ps) (pixelBit p) := by
  simp [packBits]

/-- The byte of a chunk: the packed bits of its pixels under the tail alignment (R106). -/
def chunkByte (t : TailAlign) (ps : List Word) : Byte := tail t (packBits 0 ps) ps.length

/-- The first byte from column `x` on is that of the pixels up to the eighth bit or the row's end. -/
theorem packRow_append (t : TailAlign) {w : Nat} (rest : List Word) (ps : List Word) : ∀ {x n : Nat} {acc : Byte},
    ps ≠ [] → n + ps.length ≤ 8 → n + ps.length = 8 ∨ x + ps.length = w → x + ps.length ≤ w →
    packRow t w x acc n (ps ++ rest) =
      tail t (packBits acc ps) (n + ps.length) :: packRow t w (x + ps.length) 0 0 rest := by
  induction ps with
  | nil => intro x n acc h; exact absurd rfl h
  | cons p ps ih =>
    intro x n acc _ hn hend hw
    simp only [List.length_cons] at hn hend hw ⊢
    rw [List.cons_append, packRow]
    cases ps with
    | nil => rw [if_pos (by simpa using hend)]; rfl
    | cons q ps =>
      rw [List.length_cons] at hn hend hw ⊢
      rw [if_neg (by omega), ih (List.cons_ne_nil q ps) (by simp; omega) (by simp; omega) (by simp; omega)]
      simp only [List.length_cons, packBits, List.foldl_cons]
      congr 2 <;> omega

/-- Byte `c` of a row packs the pixels from `8 * c` on, at most 8 of them. -/
theorem packRow_getElem? (t : TailAlign) {w : Nat} (c : Nat) : ∀ {x : Nat} {ps : List Word}, x + ps.length = w →
    8 * c < ps.length → (packRow t w x 0 0 ps)[c]? = some (chunkByte t ((ps.drop (8 * c)).take 8)) := by
  induction c with
  | zero =>
    intro x ps hlen hc
    have hne : ps.take 8 ≠ [] := List.ne_nil_of_length_pos (by rw [List.length_take]; omega)
    have htake : (ps.take 8).length = min 8 ps.length := List.length_take
    conv_lhs => rw [← List.take_append_drop 8 ps]
    rw [packRow_append t _ _ hne (by omega) (by omega) (by omega)]
    simp [chunkByte]
  | succ c ih =>
    intro x ps hlen hc
    have htake : (ps.take 8).length = 8 := by rw [List.length_take]; omega
    have hne : ps.take 8 ≠ [] := List.ne_nil_of_length_pos (by omega)
    conv_lhs => rw [← List.take_append_drop 8 ps]
    rw [packRow_append t _ _ hne (by omega) (by omega) (by omega), htake, List.getElem?_cons_succ,
      ih (by rw [List.length_drop]; omega) (by rw [List.length_drop]; omega), List.drop_drop,
      Nat.mul_succ, Nat.add_comm]

/-- The pixels of chunk `c` of row `y`. -/
def chunkPixels (w : Nat) (ps : List Word) (y c : Nat) : List Word := ((rowPixels w ps y).drop (8 * c)).take 8

theorem chunkPixels_length (w : Nat) (ps : List Word) (y c : Nat) :
    (chunkPixels w ps y c).length = min 8 (w - 8 * c) := by
  simp [chunkPixels, rowPixels_length]

theorem chunkPixels_getD {w c j : Nat} (ps : List Word) (y : Nat) (hj : j < min 8 (w - 8 * c)) :
    (chunkPixels w ps y c).getD j 0 = ps.getD (y * w + (8 * c + j)) 0 := by
  have h8 : j < 8 := by omega
  have hw : 8 * c + j < w := by omega
  simp [chunkPixels, rowPixels, pixelAt, List.getD_eq_getElem?_getD, h8, hw]

theorem encodeBytes_succ_last (t : TailAlign) (w h : Nat) (ps : List Word) :
    encodeBytes t w (h + 1) ps = encodeBytes t w h ps ++ packRow t w 0 0 0 (rowPixels w ps h) := by
  simp [encodeBytes, List.range_succ]

/-- Byte number `y * C + c` of `encode` is byte `c` of row `y`. -/
theorem encodeBytes_getElem?_row (t : TailAlign) {w h y c : Nat} (ps : List Word) (hy : y < h) (hc : c < rowBytes w) :
    (encodeBytes t w h ps)[y * rowBytes w + c]? = (packRow t w 0 0 0 (rowPixels w ps y))[c]? := by
  have hlen := encodeBytes_length t w
  induction h with
  | zero => omega
  | succ h ih =>
    rw [encodeBytes_succ_last]
    obtain rfl | hlt := Nat.eq_or_lt_of_le (Nat.le_of_lt_succ hy)
    · rw [List.getElem?_append_right (by rw [hlen]; omega), hlen, Nat.add_sub_cancel_left]
    · have hrow : y * rowBytes w + c < h * rowBytes w := by
        rw [Nat.mul_comm y]
        exact Nat.mul_add_lt_mul_of_lt_of_lt hlt hc
      rw [List.getElem?_append_left (by rwa [hlen]), ih hlt]

/-- Byte number `y * C + c` of `encode` packs chunk `c` of row `y`. -/
theorem encodeBytes_getElem? (t : TailAlign) {w h y c : Nat} (ps : List Word) (hy : y < h) (hc : c < rowBytes w) :
    (encodeBytes t w h ps)[y * rowBytes w + c]? = some (chunkByte t (chunkPixels w ps y c)) := by
  have hcol : 8 * c < w := by unfold rowBytes at hc; omega
  rw [encodeBytes_getElem?_row t ps hy hc, packRow_getElem? t c (by rw [rowPixels_length, Nat.zero_add])
    (by rwa [rowPixels_length])]
  rfl

/-! ### The value of a chunk's byte -/

/-- The bits of the pixels as a number, the first the most significant. -/
theorem packBits_toNat (ps : List Word) : ps.length ≤ 8 →
    (packBits 0 ps).toNat =
      ((List.range ps.length).map fun j => (pixelBit (ps.getD j 0)).toNat * 2 ^ (ps.length - 1 - j)).sum ∧
    (packBits 0 ps).toNat < 2 ^ ps.length := by
  induction ps using List.reverseRecOn with
  | nil => exact fun _ => ⟨rfl, Nat.one_pos⟩
  | append_singleton ps p ih =>
    intro hlen
    rw [List.length_append, List.length_singleton] at hlen ⊢
    obtain ⟨hsum, hlt⟩ := ih (by omega)
    have hterm : ∀ j ∈ List.range ps.length,
        (pixelBit ((ps ++ [p]).getD j 0)).toNat * 2 ^ (ps.length + 1 - 1 - j) =
          2 * ((pixelBit (ps.getD j 0)).toNat * 2 ^ (ps.length - 1 - j)) := by
      intro j hj
      rw [List.mem_range] at hj
      rw [List.getD_append _ _ _ _ hj, show ps.length + 1 - 1 - j = ps.length - 1 - j + 1 by omega, pow_succ]
      ring
    have hlast : (ps ++ [p]).getD ps.length 0 = p := by simp
    rw [packBits_concat]
    refine ⟨?_, accumulate_lt _ (by omega) hlt⟩
    rw [accumulate_toNat _ (by omega) hlt, hsum, List.range_succ, List.map_append, List.sum_append,
      List.map_congr_left hterm, List.sum_map_mul_left, List.map_singleton, List.sum_singleton, hlast]
    simp

theorem tail_of_full_or_literal {t : TailAlign} {n : Nat} (a : Byte) (h : n = 8 ∨ t = .lsbLiteral) :
    tail t a n = a := by
  obtain rfl | rfl := h
  · exact tail_eight t a
  · exact tail_lsbLiteral a n

theorem chunkByte_toNat (t : TailAlign) {ps : List Word} (hn : ps.length ≤ 8) :
    (chunkByte t ps).toNat = ((List.range ps.length).map fun j => (pixelBit (ps.getD j 0)).toNat *
      2 ^ (if ps.length = 8 ∨ t = .lsbLiteral then ps.length - 1 - j else 7 - j)).sum := by
  obtain ⟨hsum, hlt⟩ := packBits_toNat ps hn
  by_cases h : ps.length = 8 ∨ t = .lsbLiteral
  · simp only [chunkByte, tail_of_full_or_literal _ h, if_pos h, hsum]
  · obtain rfl : t = .msbPadded := by cases t <;> simp_all
    simp only [chunkByte, tail_msbPadded_toNat hn hlt, if_neg h, hsum, ← List.sum_map_mul_right]
    congr 1
    refine List.map_congr_left fun j hj => ?_
    rw [List.mem_range] at hj
    rw [mul_assoc, ← pow_add]
    congr 2
    omega

/-! ### The place of a pixel's bit -/

theorem accumulate_getLsbD (a : Byte) (bit : Bool) {k : Nat} (hk : k < 8) :
    (accumulate a bit).getLsbD k = if k = 0 then bit else a.getLsbD (k - 1) := by
  obtain rfl | hpos := Nat.eq_zero_or_pos k
  · simp [accumulate]
  · have hne : k ≠ 0 := by omega
    have hlt : k - 1 < 8 := by omega
    simp [accumulate, hk, hne, BitVec.getLsbD_eq_getElem hlt]

theorem packBits_getLsbD (ps : List Word) : ∀ {j : Nat}, ps.length ≤ 8 → j < ps.length →
    (packBits 0 ps).getLsbD (ps.length - 1 - j) = pixelBit (ps.getD j 0) := by
  induction ps using List.reverseRecOn with
  | nil => intro j _ hj; exact absurd hj (Nat.not_lt_zero j)
  | append_singleton ps p ih =>
    intro j hlen hj
    rw [List.length_append, List.length_singleton] at hlen hj ⊢
    rw [packBits_concat, accumulate_getLsbD _ _ (by omega)]
    obtain rfl | hlt := Nat.eq_or_lt_of_le (Nat.le_of_lt_succ hj)
    · simp
    · rw [if_neg (by omega), List.getD_append _ _ _ _ hlt, ← ih (by omega) hlt]
      congr 1
      omega

theorem chunkByte_getLsbD (t : TailAlign) {ps : List Word} {j : Nat} (hn : ps.length ≤ 8) (hj : j < ps.length) :
    (chunkByte t ps).getLsbD (if ps.length = 8 ∨ t = .msbPadded then 7 - j else ps.length - 1 - j) =
      pixelBit (ps.getD j 0) := by
  rw [← packBits_getLsbD ps hn hj, chunkByte]
  by_cases h8 : ps.length = 8
  · rw [tail_of_full_or_literal _ (.inl h8), if_pos (.inl h8), h8]
  · cases t with
    | lsbLiteral => rw [tail_lsbLiteral, if_neg (by simp [h8])]
    | msbPadded =>
      have hlt : 7 - j < 8 := by omega
      have hge : ¬7 - j < 8 - ps.length := by omega
      have hpos : 7 - j - (8 - ps.length) = ps.length - 1 - j := by omega
      have hlt' : ps.length - 1 - j < 8 := by omega
      simp [tail, h8, hlt, hge, hpos, BitVec.getLsbD_eq_getElem hlt']

/-- Settles O48: a byte of `encode` packs its chunk, whose value and bits are those of its pixels. -/
theorem encodeClosedForm : Obligations.EncodeClosedForm := by
  intro t w h ps _
  constructor
  · intro y c hy hc
    refine ⟨_, encodeBytes_getElem? t ps hy hc, ?_⟩
    have hlen := chunkPixels_length w ps y c
    rw [chunkByte_toNat t (by omega), hlen]
    refine congrArg List.sum (List.map_congr_left fun j hj => ?_)
    rw [chunkPixels_getD ps y (List.mem_range.mp hj)]
  · intro x y hx hy
    have hc : x / 8 < rowBytes w := by unfold rowBytes; omega
    refine ⟨_, encodeBytes_getElem? t ps hy hc, ?_⟩
    have hlen := chunkPixels_length w ps y (x / 8)
    have hj : x % 8 < min 8 (w - 8 * (x / 8)) := by omega
    have hbit := chunkByte_getLsbD t (ps := chunkPixels w ps y (x / 8)) (j := x % 8) (by omega) (by omega)
    rwa [hlen, chunkPixels_getD ps y hj, Nat.div_add_mod] at hbit

end Sys2Proof.Machine
end

section
/-! SUPPORT and PROOF. The datapath refines the reference function (40_encoder_datapath.md R106 to R111): over a row its
bytes are those `encode` packs of the row, and the row's end leaves it as at the start of the next. -/

namespace Sys2Proof.Machine

/-- The record after its waiting byte, if any, is read. -/
def Block.drained (b : Block) : Block := { b with out_full := false }

theorem Block.drained_of_empty {b : Block} (h : b.out_full = false) : b.drained = b := by
  cases b; cases h; rfl

theorem streamPixels_cons (t : TailAlign) (p : Word) (ps : List Word) (b : Block) :
    streamPixels t (p :: ps) b =
      ((streamPixels t ps (pixelStep t p b).drained).1,
        waitingByte (pixelStep t p b) ++ (streamPixels t ps (pixelStep t p b).drained).2) := rfl

theorem streamPixels_append (t : TailAlign) (ps qs : List Word) : ∀ b : Block,
    streamPixels t (ps ++ qs) b =
      ((streamPixels t qs (streamPixels t ps b).1).1,
        (streamPixels t ps b).2 ++ (streamPixels t qs (streamPixels t ps b).1).2) := by
  induction ps with
  | nil => exact fun _ => rfl
  | cons p ps ih =>
    intro b
    rw [List.cons_append, streamPixels_cons, ih, streamPixels_cons, List.append_assoc]

/-! ### A row -/

/-- `c` is where a row that began in the frame of `b` ends after `k` bytes: at the start of the next row, or at the end
of the frame after the last. -/
structure Block.RowEnd (b c : Block) (k : Nat) : Prop where
  cfg_w : c.cfg_w = b.cfg_w
  cfg_h : c.cfg_h = b.cfg_h
  x : c.x = 0
  y : c.y = b.y + 1
  acc : c.acc = 0
  nbits : c.nbits = 0
  count : c.count = b.count + BitVec.ofNat 32 k
  busy : c.busy = (b.busy && !lastRow b)
  done : c.done = (b.done || lastRow b)
  out_full : c.out_full = false

/-- The last pixel of a row flushes and ends the row. -/
theorem pixelStep_of_lastColumn (t : TailAlign) (p : Word) {b : Block} (h : lastColumn b = true) :
    waitingByte (pixelStep t p b) = [tail t (accumulate b.acc (pixelBit p)) (bitsAfter b)] ∧
      b.RowEnd (pixelStep t p b).drained 1 := by
  obtain ⟨-, hc, -⟩ | ⟨-, hc, -⟩ | ⟨-, hr, hp⟩ | ⟨-, hr, hp⟩ := pixelStep_cases t p b
  · simp [h] at hc
  · simp [h] at hc
  all_goals
    rw [hp]
    exact ⟨rfl, rfl, rfl, rfl, rfl, rfl, rfl, rfl, by simp [Block.drained, hr], by simp [Block.drained, hr], rfl⟩

/-- A pixel that is not the last of its row moves to the next column. -/
theorem pixelStep_of_not_lastColumn (t : TailAlign) (p : Word) {b : Block} (h : lastColumn b = false) :
    pixelStep t p b = nextColumn (packBit t (pixelBit p) b) := by
  simp [pixelStep, advance, h]

/-- A row ends in the same place, with the bytes counted on the way, when its next pixel is packed first. -/
theorem Block.RowEnd.of_nextColumn {t : TailAlign} {bit : Bool} {b c : Block} {j k : Nat}
    (h : (nextColumn (packBit t bit b)).drained.RowEnd c k)
    (hcount : (packBit t bit b).count = b.count + BitVec.ofNat 32 j) : b.RowEnd c (j + k) where
  cfg_w := by rw [h.cfg_w]; simp [Block.drained]
  cfg_h := by rw [h.cfg_h]; simp [Block.drained]
  x := h.x
  y := by rw [h.y]; simp [Block.drained]
  acc := h.acc
  nbits := h.nbits
  count := by
    have hkept : (nextColumn (packBit t bit b)).drained.count = (packBit t bit b).count := rfl
    rw [h.count, hkept, hcount, BitVec.add_assoc, ← BitVec.ofNat_add]
  busy := by rw [h.busy]; simp [Block.drained, lastRow]
  done := by rw [h.done]; simp [Block.drained, lastRow]
  out_full := h.out_full

/-- Over the rest of a row, at least a pixel, the datapath gives the bytes of `packRow` and ends the row. -/
theorem streamPixels_row (t : TailAlign) (ps : List Word) : ∀ b : Block, ps ≠ [] → b.out_full = false →
    b.x.toNat + ps.length = b.cfg_w.toNat →
    (streamPixels t ps b).2 = packRow t b.cfg_w.toNat b.x.toNat b.acc b.nbits.toNat ps ∧
      b.RowEnd (streamPixels t ps b).1 (streamPixels t ps b).2.length := by
  induction ps with
  | nil => exact fun b h => absurd rfl h
  | cons p ps ih =>
    intro b _ ho hlen
    rw [List.length_cons] at hlen
    rw [streamPixels_cons, packRow]
    obtain rfl | hne := eq_or_ne ps []
    · have hlast : lastColumn b = true := (lastColumn_iff b).mpr hlen
      obtain ⟨hbyte, hend⟩ := pixelStep_of_lastColumn t p hlast
      rw [hbyte, if_pos (.inr hlen)]
      exact ⟨rfl, hend⟩
    · have hlast : lastColumn b = false := by
        have hpos := List.length_pos_of_ne_nil hne
        rw [← Bool.not_eq_true, lastColumn_iff]; omega
      have hw : (nextColumn (packBit t (pixelBit p) b)).drained.cfg_w = b.cfg_w := packBit_cfg_w ..
      have hx : (nextColumn (packBit t (pixelBit p) b)).drained.x.toNat = b.x.toNat + 1 := by
        rw [Block.drained, nextColumn_x, packBit_x]
        exact BitVec.toNat_add_of_lt (by simp; omega)
      obtain ⟨hbytes, hend⟩ := ih (nextColumn (packBit t (pixelBit p) b)).drained hne rfl (by rw [hw, hx]; omega)
      rw [hw, hx] at hbytes
      rw [pixelStep_of_not_lastColumn t p hlast, List.length_append]
      obtain ⟨hf, hp⟩ | ⟨hf, hp⟩ := packBit_cases t (pixelBit p) b
      · have hwait : waitingByte (nextColumn (packBit t (pixelBit p) b)) =
            [tail t (accumulate b.acc (pixelBit p)) (bitsAfter b)] := by rw [hp]; rfl
        rw [hwait, if_pos ((flushes_iff b).mp hf)]
        refine ⟨?_, hend.of_nextColumn (j := 1) (by rw [hp]; rfl)⟩
        rw [hbytes, hp]
        rfl
      · have hwait : waitingByte (nextColumn (packBit t (pixelBit p) b)) = [] := by simp [hp, waitingByte, ho]
        have hno : ¬(b.nbits.toNat + 1 = 8 ∨ b.x.toNat + 1 = b.cfg_w.toNat) := by
          rw [← flushes_iff, hf]; exact Bool.false_ne_true
        rw [hwait, if_neg hno]
        refine ⟨?_, hend.of_nextColumn (j := 0) (by rw [hp]; simp)⟩
        rw [hbytes, hp, ← bitsAfter_toNat (b := b) (fun h => hno (.inl h))]
        rfl

/-! ### A frame -/

/-- The bytes of a zero-width frame and of a frame without rows are none. -/
theorem encodeBytes_eq_nil (t : TailAlign) {w h : Nat} (ps : List Word) (hz : w = 0 ∨ h = 0) :
    encodeBytes t w h ps = [] := by
  have hlen := encodeBytes_length t w h ps
  apply List.eq_nil_of_length_eq_zero
  obtain rfl | rfl := hz
  · rw [hlen]; simp [rowBytes]
  · rw [hlen]; simp

/-- From the start of a row on, the datapath gives the bytes of the rows left, counts them, and ends the frame. -/
theorem streamPixels_rows (t : TailAlign) (h : Nat) : ∀ (ps : List Word) (b : Block), b.out_full = false →
    1 ≤ b.cfg_w.toNat → b.y.toNat + (h + 1) = b.cfg_h.toNat → b.x = 0 → b.acc = 0 → b.nbits = 0 →
    ps.length = b.cfg_w.toNat * (h + 1) →
    (streamPixels t ps b).2 = encodeBytes t b.cfg_w.toNat (h + 1) ps ∧
      (streamPixels t ps b).1.done = true ∧ (streamPixels t ps b).1.busy = false ∧
      (streamPixels t ps b).1.count = b.count + BitVec.ofNat 32 (streamPixels t ps b).2.length := by
  induction h with
  | zero =>
    intro ps b ho hw hy hx hacc hn hlen
    have hne : ps ≠ [] := List.ne_nil_of_length_pos (by omega)
    obtain ⟨hbytes, hend⟩ := streamPixels_row t ps b hne ho (by rw [hx]; simpa using hlen)
    have hrow : lastRow b = true := (lastRow_iff b).mpr hy
    refine ⟨?_, by rw [hend.done, hrow, Bool.or_true], by rw [hend.busy, hrow]; simp, hend.count⟩
    rw [hbytes, encodeBytes_succ t 0 (by omega), List.take_of_length_le (by omega), hx, hacc, hn,
      encodeBytes_eq_nil t _ (.inr rfl), List.append_nil]
    rfl
  | succ h ih =>
    intro ps b ho hw hy hx hacc hn hlen
    rw [Nat.mul_succ] at hlen
    have hle : b.cfg_w.toNat ≤ ps.length := by omega
    have htake : (ps.take b.cfg_w.toNat).length = b.cfg_w.toNat := by rw [List.length_take]; omega
    have hne : ps.take b.cfg_w.toNat ≠ [] := List.ne_nil_of_length_pos (by omega)
    obtain ⟨hbytes, hend⟩ := streamPixels_row t _ b hne ho (by rw [hx, htake]; simp)
    have hhlt := b.cfg_h.isLt
    have hy1 : (b.y + 1).toNat = b.y.toNat + 1 := BitVec.toNat_add_of_lt (by simp; omega)
    obtain ⟨hrest, hdone, hbusy, hcount⟩ := ih (ps.drop b.cfg_w.toNat) _ hend.out_full (by rw [hend.cfg_w]; exact hw)
      (by rw [hend.y, hend.cfg_h, hy1]; omega) hend.x hend.acc hend.nbits
      (by rw [hend.cfg_w, List.length_drop]; omega)
    rw [hend.cfg_w] at hrest
    have hsplit := streamPixels_append t (ps.take b.cfg_w.toNat) (ps.drop b.cfg_w.toNat) b
    rw [List.take_append_drop] at hsplit
    rw [hsplit]
    refine ⟨?_, hdone, hbusy, ?_⟩
    · rw [hbytes, hrest, encodeBytes_succ t (h + 1) hle, hx, hacc, hn]; rfl
    · rw [hcount, hend.count, List.length_append, BitVec.add_assoc, ← BitVec.ofNat_add]

/-- Settles O50: the rows of the frame one after the other; the count is the number of bytes, which fits 32 bits. -/
theorem datapathRefinesEncode : Obligations.DatapathRefinesEncode := by
  intro t ps b _ ho hw hh hx hy hacc hn hcount hlen
  obtain ⟨h, hh'⟩ := Nat.exists_eq_succ_of_ne_zero (show b.cfg_h.toNat ≠ 0 by omega)
  obtain ⟨hbytes, hdone, hbusy, hc⟩ := streamPixels_rows t h ps b ho hw (by rw [hy, hh']; simp) hx hacc hn
    (by rw [hlen, hh'])
  rw [← Nat.succ_eq_add_one, ← hh'] at hbytes
  refine ⟨hbytes, hdone, hbusy, ?_⟩
  have hle := frameBytes_le b.cfg_w b.cfg_h
  have hnum : (streamPixels t ps b).2.length = b.cfg_h.toNat * rowBytes b.cfg_w.toNat := by
    rw [hbytes, encodeBytes_length]
  rw [hc, hnum, hcount, zero_add, BitVec.toNat_ofNat, Nat.mod_eq_of_lt (by omega)]
  rfl

end Sys2Proof.Machine
end

section
/-! SUPPORT and PROOF. A host feeding a frame (40_encoder_datapath.md R115): what every stretch of an error-free run
with no write of CTRL says about the pixels accepted and the bytes read in it. -/

namespace Sys2Proof.Machine

/-! ### How far a frame has come -/

/-- The number of pixels the frame has taken: the raster index of the next one (40_encoder_datapath.md R108). -/
def Block.index (b : Block) : Nat := b.y.toNat * b.cfg_w.toNat + b.x.toNat

/-- A frame was started and not aborted: it runs or is done. -/
def Block.started (b : Block) : Prop := b.busy = true ∨ b.done = true

theorem Block.Inv.index_lt_of_busy {b : Block} (h : b.Inv) (hbusy : b.busy = true) :
    b.index < b.cfg_w.toNat * b.cfg_h.toNat := by
  obtain ⟨-, hpos, -⟩ := h
  obtain ⟨-, -, hx, hy⟩ := hpos hbusy
  rw [index, Nat.mul_comm b.y.toNat, Nat.mul_comm b.cfg_w.toNat b.cfg_h.toNat]
  exact Nat.mul_add_lt_mul_of_lt_of_lt hy hx

theorem Block.Inv.index_eq_of_done {b : Block} (h : b.Inv) (hdone : b.done = true) :
    b.index = b.cfg_w.toNat * b.cfg_h.toNat := by
  obtain ⟨-, -, -, -, -, hend, -⟩ := h
  obtain ⟨hx, hy, hzero⟩ := hend hdone
  by_cases hz : b.cfg_w = 0 ∨ b.cfg_h = 0
  · obtain ⟨hy0, -⟩ := hzero hz
    obtain hw | hh := hz
    · simp [index, hx, hy0, hw]
    · simp [index, hx, hy0, hh]
  · simp [index, hx, hy.resolve_right hz, Nat.mul_comm]

/-- A started frame runs exactly while pixels are missing. -/
theorem Block.Inv.busy_iff {b : Block} (h : b.Inv) (hs : b.started) :
    b.busy = true ↔ b.index < b.cfg_w.toNat * b.cfg_h.toNat := by
  refine ⟨h.index_lt_of_busy, fun hlt => hs.resolve_right fun hdone => ?_⟩
  rw [h.index_eq_of_done hdone] at hlt
  exact lt_irrefl _ hlt

/-- A started frame is done exactly when it has taken all its pixels. -/
theorem Block.Inv.done_iff {b : Block} (h : b.Inv) (hs : b.started) :
    b.done = true ↔ b.index = b.cfg_w.toNat * b.cfg_h.toNat :=
  ⟨h.index_eq_of_done, fun heq => hs.resolve_left fun hbusy => (h.index_lt_of_busy hbusy).ne heq⟩

theorem Block.Inv.index_le {b : Block} (h : b.Inv) (hs : b.started) : b.index ≤ b.cfg_w.toNat * b.cfg_h.toNat :=
  hs.elim (fun hbusy => (h.index_lt_of_busy hbusy).le) (fun hdone => (h.index_eq_of_done hdone).le)

/-- An accepted pixel is the next in raster order. -/
theorem index_pixelStep {b : Block} (h : b.Inv) (t : TailAlign) (p : Word) (hbusy : b.busy = true) :
    (pixelStep t p b).index = b.index + 1 := by
  have hx1 := h.x_succ_toNat hbusy
  have hy1 := h.y_succ_toNat hbusy
  have hrow (hc : lastColumn b = true) :
      (b.y + 1).toNat * b.cfg_w.toNat + 0 = b.y.toNat * b.cfg_w.toNat + b.x.toNat + 1 := by
    rw [hy1, Nat.succ_mul, ← (lastColumn_iff b).mp hc]
    rfl
  have hcolumn : b.y.toNat * b.cfg_w.toNat + (b.x + 1).toNat = b.y.toNat * b.cfg_w.toNat + b.x.toNat + 1 := by
    rw [hx1]; rfl
  obtain ⟨-, -, hp⟩ | ⟨-, -, hp⟩ | ⟨hc, -, hp⟩ | ⟨hc, -, hp⟩ := pixelStep_cases t p b <;> rw [hp]
  · exact hcolumn
  · exact hcolumn
  · exact hrow hc
  · exact hrow hc

theorem started_pixelStep (t : TailAlign) (p : Word) {b : Block} (h : b.started) : (pixelStep t p b).started := by
  obtain ⟨hbusy, hdone⟩ | ⟨-, hdone, -⟩ := pixelStep_busy_done_cases t p b
  · exact h.imp hbusy.trans hdone.trans
  · exact .inr hdone

theorem waitingByte_length (b : Block) : (waitingByte b).length = if b.out_full = true then 1 else 0 := by
  unfold waitingByte
  split <;> rfl

theorem waitingByte_of_empty {b : Block} (h : b.out_full = false) : waitingByte b = [] := by
  simp [waitingByte, h]

/-- The datapath's bytes do not depend on DIM (20_memory.md R60). -/
theorem streamPixels_writeDim (t : TailAlign) (v : Word) (ps : List Word) : ∀ b : Block,
    (streamPixels t ps (writeDim v b)).2 = (streamPixels t ps b).2 := by
  induction ps with
  | nil => exact fun _ => rfl
  | cons p ps ih =>
    intro b
    rw [streamPixels_cons, streamPixels_cons, pixelStep_writeDim]
    exact congrArg (waitingByte (pixelStep t p b) ++ ·) (ih (pixelStep t p b).drained)

/-! ### A stretch of a frame -/

/-- What a stretch of a frame keeps and moves on when the pixels `ps` are accepted and the bytes `bs` read between the
records `b` and `c`. The bytes read in it, the one waiting after it and those the datapath gives for any pixels `rest`
to come are the one waiting before it and those the datapath gives for `ps` and `rest`. -/
structure Block.Progress (b : Block) (ps : List Word) (bs : List Byte) (c : Block) : Prop where
  inv : c.Inv
  cfg_w : c.cfg_w = b.cfg_w
  cfg_h : c.cfg_h = b.cfg_h
  err_ovf : c.err_ovf = b.err_ovf
  err_udf : c.err_udf = b.err_udf
  err_cmd : c.err_cmd = b.err_cmd
  started : b.started → c.started
  index : c.index = b.index + ps.length
  count : c.count.toNat + (waitingByte b).length = b.count.toNat + bs.length + (waitingByte c).length
  bytes : ∀ rest, waitingByte b ++ (streamPixels .lsbLiteral (ps ++ rest) b.drained).2 =
    bs ++ (waitingByte c ++ (streamPixels .lsbLiteral rest c.drained).2)

theorem Block.Progress.refl {b : Block} (h : b.Inv) : b.Progress [] [] b :=
  ⟨h, rfl, rfl, rfl, rfl, rfl, id, rfl, rfl, fun _ => rfl⟩

theorem Block.Progress.trans {b c d : Block} {ps qs : List Word} {bs cs : List Byte} (h : b.Progress ps bs c)
    (h' : c.Progress qs cs d) : b.Progress (ps ++ qs) (bs ++ cs) d where
  inv := h'.inv
  cfg_w := h'.cfg_w.trans h.cfg_w
  cfg_h := h'.cfg_h.trans h.cfg_h
  err_ovf := h'.err_ovf.trans h.err_ovf
  err_udf := h'.err_udf.trans h.err_udf
  err_cmd := h'.err_cmd.trans h.err_cmd
  started := h'.started ∘ h.started
  index := by rw [h'.index, h.index, List.length_append, Nat.add_assoc]
  count := by
    have hc := h.count
    have hc' := h'.count
    rw [List.length_append]
    omega
  bytes rest := by rw [List.append_assoc, h.bytes, h'.bytes, List.append_assoc]

theorem Block.Progress.writeDim {b : Block} (h : b.Inv) (v : Word) : b.Progress [] [] (writeDim v b) :=
  ⟨h.writeDim v, rfl, rfl, rfl, rfl, rfl, id, rfl, rfl,
    fun rest => congrArg (waitingByte b ++ ·) (streamPixels_writeDim .lsbLiteral v rest b.drained).symm⟩

/-- The waiting byte is read, if there is one. -/
theorem Block.Progress.drain {b : Block} (h : b.Inv) : b.Progress [] (waitingByte b) b.drained := by
  have hinv : b.drained.Inv := by
    cases ho : b.out_full
    · rwa [drained_of_empty ho]
    · rw [drained, ← popOut_of_full b ho]; exact h.popOut
  exact ⟨hinv, rfl, rfl, rfl, rfl, rfl, id, rfl, rfl, fun _ => rfl⟩

theorem Block.Progress.pixel {b : Block} (h : b.Inv) (p : Word) (hbusy : b.busy = true) (ho : b.out_full = false) :
    b.Progress [p] [] (pixelStep .lsbLiteral p b) where
  inv := h.pixelStep .lsbLiteral p hbusy ho
  cfg_w := by simp [pixelStep]
  cfg_h := by simp [pixelStep]
  err_ovf := by simp [pixelStep]
  err_udf := by simp [pixelStep]
  err_cmd := by simp [pixelStep]
  started := started_pixelStep .lsbLiteral p
  index := index_pixelStep h .lsbLiteral p hbusy
  count := by
    rw [pixelStep_count_toNat h .lsbLiteral p, waitingByte_of_empty ho, waitingByte_length,
      pixelStep_out_full .lsbLiteral p ho]
    rfl
  bytes rest := by
    rw [waitingByte_of_empty ho, drained_of_empty ho]
    rfl

/-! ### From an accepted START on -/

/-- From an accepted START on, the datapath gives `encode` of the frame's pixels, with or without an area. -/
theorem streamPixels_startFrame {b : Block} (ho : b.out_full = false) {ps : List Word}
    (hlen : ps.length = b.dim_w.toNat * b.dim_h.toNat) :
    (streamPixels .lsbLiteral ps (startFrame b)).2 = encodeBytes .lsbLiteral b.dim_w.toNat b.dim_h.toNat ps := by
  cases hz : zeroArea b
  · obtain ⟨hw, hh⟩ := one_le_dim_of_not_zeroArea hz
    exact (datapathRefinesEncode .lsbLiteral ps (startFrame b) (by simp [hz]) ho hw hh rfl rfl rfl rfl rfl hlen).1
  · have harea : b.dim_w.toNat = 0 ∨ b.dim_h.toNat = 0 := by
      obtain hw | hh := (zeroArea_iff b).mp hz
      · exact .inl (by simp [hw])
      · exact .inr (by simp [hh])
    rw [encodeBytes_eq_nil _ _ harea, List.eq_nil_of_length_eq_zero (hlen.trans (Nat.mul_eq_zero.mpr harea))]
    rfl

theorem started_startFrame (b : Block) : (startFrame b).started := by
  cases hz : zeroArea b
  · exact .inl (by simp [hz])
  · exact .inr (by simp [hz])

section
variable {b c : Block} {ps : List Word} {bs : List Byte}

theorem Block.Progress.started_of_start (h : (startFrame b).Progress ps bs c) : c.started :=
  h.started (started_startFrame b)

theorem Block.Progress.index_of_start (h : (startFrame b).Progress ps bs c) : c.index = ps.length := by
  rw [h.index]; simp [Block.index]

theorem Block.Progress.length_le (h : (startFrame b).Progress ps bs c) :
    ps.length ≤ b.dim_w.toNat * b.dim_h.toNat := by
  have hle := h.inv.index_le h.started_of_start
  rwa [h.index_of_start, h.cfg_w, h.cfg_h] at hle

theorem Block.Progress.done_iff (h : (startFrame b).Progress ps bs c) :
    c.done = true ↔ ps.length = b.dim_w.toNat * b.dim_h.toNat := by
  have hiff := h.inv.done_iff h.started_of_start
  rwa [h.index_of_start, h.cfg_w, h.cfg_h] at hiff

theorem Block.Progress.busy_iff (h : (startFrame b).Progress ps bs c) :
    c.busy = true ↔ ps.length < b.dim_w.toNat * b.dim_h.toNat := by
  have hiff := h.inv.busy_iff h.started_of_start
  rwa [h.index_of_start, h.cfg_w, h.cfg_h] at hiff

/-- COUNT counts the bytes read and the byte waiting. -/
theorem Block.Progress.count_of_start (h : (startFrame b).Progress ps bs c) (ho : b.out_full = false) :
    c.count.toNat = (bs ++ waitingByte c).length := by
  have hcount := h.count
  rw [waitingByte_of_empty (b := startFrame b) ho] at hcount
  simpa using hcount

/-- The bytes read, the byte waiting and those the pixels to come will give are `encode` of the whole frame. -/
theorem Block.Progress.encode_eq (h : (startFrame b).Progress ps bs c) (ho : b.out_full = false) {rest : List Word}
    (hlen : (ps ++ rest).length = b.dim_w.toNat * b.dim_h.toNat) :
    encodeBytes .lsbLiteral b.dim_w.toNat b.dim_h.toNat (ps ++ rest) =
      (bs ++ waitingByte c) ++ (streamPixels .lsbLiteral rest c.drained).2 := by
  rw [← streamPixels_startFrame ho hlen, List.append_assoc, ← h.bytes, waitingByte_of_empty (b := startFrame b) ho,
    drained_of_empty (b := startFrame b) ho, List.nil_append]

/-- A complete and drained frame gave all of `encode`, and COUNT is the number of its bytes. -/
theorem Block.Progress.of_ended (h : (startFrame b).Progress ps bs c) (ho : b.out_full = false) (hend : c.frameEnded) :
    bs = encodeBytes .lsbLiteral b.dim_w.toNat b.dim_h.toNat ps ∧
      c.count.toNat = b.dim_h.toNat * rowBytes b.dim_w.toNat := by
  obtain ⟨hdone, hempty⟩ := hend
  have hcount := h.count_of_start ho
  have hencode := h.encode_eq ho (rest := []) (by rw [List.append_nil]; exact h.done_iff.mp hdone)
  rw [waitingByte_of_empty hempty, List.append_nil] at hcount
  rw [List.append_nil, waitingByte_of_empty hempty, List.append_nil] at hencode
  have hbs : encodeBytes .lsbLiteral b.dim_w.toNat b.dim_h.toNat ps = bs := hencode.trans (List.append_nil bs)
  exact ⟨hbs.symm, by rw [hcount, ← hbs, encodeBytes_length]⟩

end

/-! ### Any error-free host -/

theorem outWord_valid {b : Block} (h : b.out_full = true) : (outWord b)[8] = true := by
  rw [outWord_of_full b h, BitVec.getElem_setWidth, BitVec.getLsbD_append]
  simp

theorem outWord_byte {b : Block} (h : b.out_full = true) : (outWord b).extractLsb' 0 8 = b.out_data := by
  apply BitVec.eq_of_getLsbD_eq
  intro k hk
  rw [outWord_of_full b h, BitVec.getLsbD_extractLsb', BitVec.getLsbD_setWidth, BitVec.getLsbD_append]
  have hk' : k < 32 := by omega
  simp [hk, hk']

/-- A read of OUT returns the waiting byte. -/
theorem poppedBytes_rdOut {b : Block} (h : b.out_full = true) : poppedBytes [.rdOut] [outWord b] = waitingByte b := by
  simp [poppedBytes, waitingByte, outWord_valid h, outWord_byte h, h]

/-- A transaction other than a write of CTRL that leaves no error flag set is a stretch of the frame: an accepted pixel,
a byte read, or nothing that the frame sees. -/
theorem exec_progress {i : Instr} {s t : State} (hexec : exec i s = .next t) (hctrl : isCtrlWrite i = false)
    (hinv : s.block.Inv) (herr : t.block.noErrors) :
    s.block.Progress (pixelsOf [i]) (poppedBytes [i] [t.rdata]) t.block := by
  obtain ⟨hovf, hudf, -⟩ := herr
  cases i with
  | wrCtrl v => cases hctrl
  | wrPixel v =>
    rw [exec_wrPixel] at hexec
    obtain ⟨hbusy, ho, hw⟩ | ⟨-, hw⟩ := writePixel_cases .lsbLiteral v s.block <;> rw [hw] at hexec <;> cases hexec
    · exact Block.Progress.pixel hinv v hbusy ho
    · simp at hovf
  | rdOut =>
    rw [exec_rdOut] at hexec
    obtain ⟨hfull, hp⟩ | ⟨-, hp⟩ := popOut_cases s.block <;> rw [hp] at hexec <;> cases hexec
    · rw [State.complete_rdata, poppedBytes_rdOut hfull]
      exact Block.Progress.drain hinv
    · simp at hudf
  | wrDim v => cases hexec; exact Block.Progress.writeDim hinv v
  | rdCtrl | rdStatus | rdDim | rdPixel | rdLen | rdPos | rdCount | wrStatus | wrOut | wrLen | wrPos | wrCount =>
    cases hexec; exact Block.Progress.refl hinv

theorem pixelsOf_cons (i : Instr) (is : List Instr) : pixelsOf (i :: is) = pixelsOf [i] ++ pixelsOf is :=
  List.filterMap_append (l := [i])

theorem poppedBytes_cons (i : Instr) (is : List Instr) (r : Word) (rs : List Word) :
    poppedBytes (i :: is) (r :: rs) = poppedBytes [i] [r] ++ poppedBytes is rs :=
  List.filterMap_append (l := [(i, r)])

/-- A run with no write of CTRL that ends with no error flag set is a stretch of the frame. -/
theorem runHost_progress (is : List Instr) : ∀ {s u : State} {rs : List Word}, s.block.Inv →
    (∀ i ∈ is, isCtrlWrite i = false) → runHost is s = some (u, rs) → u.block.noErrors →
    s.block.Progress (pixelsOf is) (poppedBytes is rs) u.block := by
  induction is with
  | nil =>
    intro s u rs hinv _ hrun _
    cases hrun
    exact Block.Progress.refl hinv
  | cons i is ih =>
    intro s u rs hinv hctrl hrun herr
    obtain ⟨t, rs, hexec, hrun', rfl⟩ := (runHost_cons_iff ..).mp hrun
    have hrest := ih (exec_keeps_inv hinv hexec) (fun j hj => hctrl j (List.mem_cons_of_mem i hj)) hrun' herr
    have herr' : t.block.noErrors := by
      rwa [Block.noErrors, hrest.err_ovf, hrest.err_udf, hrest.err_cmd] at herr
    rw [pixelsOf_cons, poppedBytes_cons]
    exact (exec_progress hexec (hctrl i List.mem_cons_self) hinv herr').trans hrest

/-- No transaction both writes a pixel and reads a byte. -/
theorem pixels_add_bytes_le (is : List Instr) : ∀ rs : List Word,
    (pixelsOf is).length + (poppedBytes is rs).length ≤ is.length := by
  have hone (i : Instr) (r : Word) : (pixelsOf [i]).length + (poppedBytes [i] [r]).length ≤ 1 := by
    cases i with
    | rdOut => cases hr : r[8] <;> simp [pixelsOf, poppedBytes, hr]
    | _ => simp [pixelsOf, poppedBytes]
  induction is with
  | nil => exact fun _ => Nat.le_refl 0
  | cons i is ih =>
    intro rs
    cases rs with
    | nil =>
      have hle : (pixelsOf (i :: is)).length ≤ (i :: is).length := List.length_filterMap_le _ _
      simpa [poppedBytes] using hle
    | cons r rs =>
      have hrest := ih rs
      have hfirst := hone i r
      rw [pixelsOf_cons, poppedBytes_cons, List.length_append, List.length_append, List.length_cons]
      omega

/-- Settles O52: after the START the run is one stretch of the frame. -/
theorem anyHostReadsAPrefixOfEncode : Obligations.AnyHostReadsAPrefixOfEncode := by
  intro s u v r is rs hstart hacc hctrl hrun herr w h
  obtain ⟨t, rs', hexec, hrun, heq⟩ := (runHost_cons_iff ..).mp hrun
  obtain ⟨-, rfl⟩ := List.cons_eq_cons.mp heq
  rw [exec_wrCtrl, writeCtrl_of_accepted hstart hacc] at hexec
  cases hexec
  have ho := beforeStart_out_full_of_accepted hacc
  have hfed := runHost_progress is (Block.inv_startFrame ho) hctrl hrun herr
  have hw : (beforeStart v s.block).dim_w = s.block.dim_w := beforeStart_dim_w v s.block
  have hh : (beforeStart v s.block).dim_h = s.block.dim_h := beforeStart_dim_h v s.block
  have hlen := hfed.length_le
  have hdone := hfed.done_iff
  have hbusy := hfed.busy_iff
  have hcount := hfed.count_of_start ho
  have hended := hfed.of_ended ho
  rw [hw, hh] at hlen hdone hbusy hended
  refine ⟨hlen, hdone, hbusy, ?_, fun hend => ?_⟩
  · rintro ps ⟨rest, rfl⟩ hall
    have hencode := hfed.encode_eq ho (rest := rest) (by rw [hw, hh]; exact hall)
    rw [hw, hh] at hencode
    rw [hencode, hcount, List.take_left]
  · obtain ⟨hbytes, hnum⟩ := hended hend
    have htotal := pixels_add_bytes_le is rs
    rw [hdone.mp hend.1, hbytes, encodeBytes_length] at htotal
    exact ⟨hbytes, hnum, htotal⟩

end Sys2Proof.Machine
end

section
/-! SUPPORT and PROOF. The host protocol (70_reset_and_hazards.md R203): each turn of its loop is a stretch of the frame
(40_encoder_datapath.md R115). -/

namespace Sys2Proof.Machine

/-! ### The flags a host polls -/

theorem statusWord_done (b : Block) : (statusWord b)[1] = b.done := by
  rw [statusWord, BitVec.getElem_setWidth, BitVec.getLsbD_append, BitVec.getLsbD_append]
  simp

theorem statusWord_inReady (b : Block) : (statusWord b)[2] = inReady b := by
  rw [statusWord, BitVec.getElem_setWidth, BitVec.getLsbD_append, BitVec.getLsbD_append, BitVec.getLsbD_append]
  simp

theorem statusWord_out_full (b : Block) : (statusWord b)[3] = b.out_full := by
  rw [statusWord, BitVec.getElem_setWidth, BitVec.getLsbD_append, BitVec.getLsbD_append,
    BitVec.getLsbD_append, BitVec.getLsbD_append]
  simp

/-! ### The host's loop -/

/-- One poll is enough while IN_READY = 1. -/
theorem pollReady_of_ready {polls : Nat} (hpolls : 1 ≤ polls) {s : State} (h : inReady s.block = true) :
    pollReady polls s = some (s.read .status) := by
  obtain ⟨k, rfl⟩ := Nat.exists_eq_succ_of_ne_zero (Nat.one_le_iff_ne_zero.mp hpolls)
  have hready : (s.read .status).rdata[2] = true := (statusWord_inReady s.block).trans h
  simp only [pollReady, transact_of_exec (exec_rdStatus s), hready, if_true]

/-- The host reads the waiting byte, if there is one. -/
theorem drainOut_eq (s : State) :
    ∃ u, drainOut s = some (u, waitingByte s.block) ∧ u.block = s.block.drained := by
  have hvalid : (s.read .status).rdata[3] = s.block.out_full := statusWord_out_full s.block
  simp only [drainOut, transact_of_exec (exec_rdStatus s), hvalid]
  cases hfull : s.block.out_full
  · exact ⟨s.read .status, by simp [waitingByte, hfull], (Block.drained_of_empty hfull).symm⟩
  · refine ⟨(s.read .status).complete (popOut s.block) (outWord s.block), ?_, popOut_of_full s.block hfull⟩
    simp [transact_of_exec (exec_rdOut _), outWord_valid hfull, outWord_byte hfull, waitingByte, hfull]

/-- One turn of the host's loop is a stretch of the frame. -/
theorem sendPixel_progress {polls : Nat} (hpolls : 1 ≤ polls) (p : Word) {s : State} (hinv : s.block.Inv)
    (hbusy : s.block.busy = true) (ho : s.block.out_full = false) :
    ∃ u bs, sendPixel polls p s = some (u, bs) ∧ s.block.Progress [p] bs u.block ∧ u.block.out_full = false := by
  have hready : inReady s.block = true := (inReady_iff _).mpr ⟨hbusy, ho⟩
  have hpixel := Block.Progress.pixel hinv p hbusy ho
  obtain ⟨u, hdrain, hu⟩ := drainOut_eq ((s.read .status).write (pixelStep .lsbLiteral p s.block))
  refine ⟨u, waitingByte (pixelStep .lsbLiteral p s.block), ?_, ?_, ?_⟩
  · simp only [sendPixel, pollReady_of_ready hpolls hready]
    rw [transact_of_exec (exec_wrPixel_of_ready p (s := s.read .status) hbusy ho)]
    exact hdrain
  · rw [hu]
    exact hpixel.trans (Block.Progress.drain hpixel.inv)
  · rw [hu]
    rfl

/-- The host's loop takes the pixels one after the other while the frame has room for them. -/
theorem sendPixels_progress {polls : Nat} (hpolls : 1 ≤ polls) (ps : List Word) : ∀ {s : State}, s.block.Inv →
    s.block.started → s.block.out_full = false →
    s.block.index + ps.length ≤ s.block.cfg_w.toNat * s.block.cfg_h.toNat →
    ∃ u bs, sendPixels polls ps s = some (u, bs) ∧ s.block.Progress ps bs u.block ∧ u.block.out_full = false := by
  induction ps with
  | nil => exact fun {s} hinv _ ho _ => ⟨s, [], rfl, Block.Progress.refl hinv, ho⟩
  | cons p ps ih =>
    intro s hinv hstarted ho hroom
    rw [List.length_cons] at hroom
    have hbusy : s.block.busy = true := (hinv.busy_iff hstarted).mpr (by omega)
    obtain ⟨t, bs, hsend, hfirst, hto⟩ := sendPixel_progress hpolls p hinv hbusy ho
    have hindex := hfirst.index
    rw [List.length_singleton] at hindex
    obtain ⟨u, cs, hsends, hrest, huo⟩ := ih hfirst.inv (hfirst.started hstarted) hto
      (by rw [hfirst.cfg_w, hfirst.cfg_h]; omega)
    exact ⟨u, bs ++ cs, by simp only [sendPixels, hsend, hsends], hfirst.trans hrest, huo⟩

/-! ### A frame -/

/-- A write of 0x1 is a START alone. -/
theorem writeCtrl_one_of_accepted {b : Block} (hbusy : b.busy = false) (ho : b.out_full = false) :
    writeCtrl 0x1 b = startFrame b := by
  have hbefore : beforeStart 0x1 b = b := rfl
  rw [writeCtrl_of_accepted (by decide) (.inr ⟨hbusy, ho⟩), hbefore]

/-- Settles O51: the frame's pixels are one stretch from the accepted START on, and it leaves the frame complete and
drained. -/
theorem streamingEquivalence : Obligations.StreamingEquivalence := by
  intro polls w h ps s hpolls hbusy ho hlen
  obtain ⟨b, hb⟩ : ∃ b, writeDim (dimOperand w h) s.block = b := ⟨_, rfl⟩
  have hw : b.dim_w = w := by rw [← hb]; exact dimWidth_dimOperand w h
  have hh : b.dim_h = h := by rw [← hb]; exact dimHeight_dimOperand w h
  have hbo : b.out_full = false := by rw [← hb]; exact ho
  have hbbusy : b.busy = false := by rw [← hb]; exact hbusy
  have hdim : exec (.wrDim (dimOperand w h)) s = .next (s.write b) := by rw [exec_wrDim, hb]
  have hstart : exec (.wrCtrl 0x1) (s.write b) = .next ((s.write b).write (startFrame b)) := by
    rw [exec_wrCtrl, State.write_block, writeCtrl_one_of_accepted hbbusy hbo]
  have hroom : (startFrame b).index + ps.length ≤ b.dim_w.toNat * b.dim_h.toNat := by
    rw [hw, hh, hlen]; simp [Block.index]
  obtain ⟨u, bs, hsend, hfed, huo⟩ := sendPixels_progress hpolls ps (s := (s.write b).write (startFrame b))
    (Block.inv_startFrame hbo) (started_startFrame b) hbo hroom
  have hdone : u.block.done = true := hfed.done_iff.mpr (by rw [hw, hh, hlen])
  have hidle : u.block.busy = false := by
    rw [← Bool.not_eq_true, hfed.busy_iff, hw, hh, hlen]; exact lt_irrefl _
  obtain ⟨hbytes, hcount⟩ := hfed.of_ended hbo ⟨hdone, huo⟩
  rw [hw, hh] at hbytes hcount
  refine ⟨u.read .status, bs, ?_, hbytes, hdone, hidle, huo, (statusWord_done u.block).trans hdone,
    (statusWord_out_full u.block).trans huo, hcount, hfed.err_ovf.trans (by rw [← hb]; rfl),
    hfed.err_udf.trans (by rw [← hb]; rfl), hfed.err_cmd.trans (by rw [← hb]; rfl)⟩
  simp only [sendFrame, transact_of_exec hdim, transact_of_exec hstart, hsend, transact_of_exec (exec_rdStatus u)]

end Sys2Proof.Machine
end

section
/-! SUPPORT and PROOF. The reads of the control and configuration registers, the write of DIM and the writes that are
ignored (41_control_and_config.md R134 to R144): each register's word as a number or bit by bit. -/

namespace Sys2Proof.Machine

/-! ### A short run of the host -/

/-- Reads without a side effect all return the values of the one record they find (20_memory.md R55). -/
theorem runHost_reads (regs : List Reg) (hout : .out ∉ regs) : ∀ s : State,
    ∃ t, runHost (regs.map readOf) s = some (t, regs.map (readValue · s.block)) := by
  induction regs with
  | nil => exact fun s => ⟨s, rfl⟩
  | cons r regs ih =>
    intro s
    obtain ⟨t, ht⟩ := ih (List.not_mem_of_not_mem_cons hout) (s.read r)
    exact ⟨t, (runHost_cons_iff ..).mpr ⟨s.read r, _, exec_readOf (List.ne_of_not_mem_cons hout).symm s, ht, rfl⟩⟩

/-- After a write the reads return the values of the record it left. -/
theorem runHost_write_reads {i : Instr} {s : State} {b : Block} (h : exec i s = .next (s.write b)) (regs : List Reg)
    (hout : .out ∉ regs) : ∃ t, runHost (i :: regs.map readOf) s = some (t, 0 :: regs.map (readValue · b)) := by
  obtain ⟨t, ht⟩ := runHost_reads regs hout (s.write b)
  exact ⟨t, (runHost_cons_iff ..).mpr ⟨s.write b, _, h, ht, rfl⟩⟩

/-! ### Registers that hold no state -/

/-- Settles O13: the read value of CTRL and of PIXEL is 0 by definition. -/
theorem rdCtrlAndRdPixelReadZero : Obligations.RdCtrlAndRdPixelReadZero :=
  ⟨fun v => ⟨decode_serialise_headerOf_readOf .ctrl v, decode_serialise_headerOf_readOf .pixel v⟩,
    fun s => ⟨exec_rdCtrl s, exec_rdPixel s⟩⟩

/-- Settles O19: each of the five writes answers the record it found, so the byte still waits. -/
theorem ignoredWritesChangeNothing : Obligations.IgnoredWritesChangeNothing := by
  refine ⟨fun v => ⟨decode_serialise_headerOf_writeOf .status v v, decode_serialise_headerOf_writeOf .out v v,
      decode_serialise_headerOf_writeOf .len v v, decode_serialise_headerOf_writeOf .pos v v,
      decode_serialise_headerOf_writeOf .count v v⟩,
    fun v s => ⟨exec_wrStatus v s, exec_wrOut v s, exec_wrLen v s, exec_wrPos v s, exec_wrCount v s, ?_⟩⟩
  intro hfull hdata
  have hout : outWord s.block = 0x00000105 := by rw [outWord_of_full s.block hfull, hdata]; rfl
  rw [← hout]
  exact ⟨_, (runHost_cons_iff ..).mpr ⟨_, _, exec_wrOut v s,
    (runHost_cons_iff ..).mpr ⟨_, _, exec_rdOut (s.write s.block), rfl, rfl⟩, rfl⟩⟩

/-! ### STATUS -/

theorem statusWord_busy (b : Block) : (statusWord b)[0] = b.busy := by
  simp only [statusWord, BitVec.getElem_setWidth, BitVec.getLsbD_append]; simp

theorem statusWord_err_ovf (b : Block) : (statusWord b)[4] = b.err_ovf := by
  simp only [statusWord, BitVec.getElem_setWidth, BitVec.getLsbD_append]; simp

theorem statusWord_err_udf (b : Block) : (statusWord b)[5] = b.err_udf := by
  simp only [statusWord, BitVec.getElem_setWidth, BitVec.getLsbD_append]; simp

theorem statusWord_err_cmd (b : Block) : (statusWord b)[6] = b.err_cmd := by
  simp only [statusWord, BitVec.getElem_setWidth, BitVec.getLsbD_append]; simp

/-- The seven flags fill bits 6:0, so bits 31:7 are 0. -/
theorem statusWord_high (b : Block) {k : Nat} (hk : 7 ≤ k) : (statusWord b).getLsbD k = false := by
  rw [statusWord, BitVec.getLsbD_setWidth, BitVec.getLsbD_of_ge _ _ hk, Bool.and_false]

/-- STATUS while a byte of a running frame waits: BUSY and OUT_VALID. -/
theorem statusWord_of_waiting {b : Block} (hbusy : b.busy = true) (hdone : b.done = false) (hfull : b.out_full = true)
    (herr : b.noErrors) : statusWord b = 0x00000009 := by
  obtain ⟨hovf, hudf, hcmd⟩ := herr
  simp only [statusWord, inReady, hbusy, hdone, hfull, hovf, hudf, hcmd]
  rfl

/-- Settles O14: each flag stands at its bit, and the first of the invariants keeps BUSY and DONE apart. -/
theorem rdStatusReadsTheFlags : Obligations.RdStatusReadsTheFlags := by
  refine ⟨decode_serialise_headerOf_readOf .status, fun s => ?_, exec_rdStatus _, fun s hbusy hdone hfull herr => ?_⟩
  · refine ⟨statusWord s.block, exec_rdStatus s, exec_rdStatus _, statusWord_busy _, statusWord_done _,
      statusWord_inReady _, statusWord_out_full _, statusWord_err_ovf _, statusWord_err_udf _, statusWord_err_cmd _,
      fun _ => statusWord_high _, ?_, ?_⟩
    · rw [statusWord_inReady, statusWord_busy, inReady_iff]
      exact And.left
    · rintro ⟨hbusyNotDone, -⟩
      rwa [statusWord_busy, statusWord_done]
  · rw [← statusWord_of_waiting hbusy hdone hfull herr]
    exact exec_rdStatus s

/-! ### DIM and LEN -/

theorem dimWidth_toNat (v : Word) : (dimWidth v).toNat = v.toNat % 2 ^ 16 := by
  simp [dimWidth]

theorem dimHeight_toNat (v : Word) : (dimHeight v).toNat = v.toNat / 2 ^ 16 := by
  have hv := v.isLt
  rw [dimHeight, BitVec.extractLsb'_toNat, Nat.shiftRight_eq_div_pow]
  omega

/-- DIM reads back what was written to it. -/
@[simp] theorem dimWord_writeDim (v : Word) (b : Block) : dimWord (writeDim v b) = v := by
  apply BitVec.eq_of_toNat_eq
  rw [dimWord_toNat, writeDim_dim_h, writeDim_dim_w, dimHeight_toNat, dimWidth_toNat]
  omega

/-- The 32 bits of LEN hold the whole product (41_control_and_config.md R139). -/
theorem lenWord_toNat (b : Block) : (lenWord b).toNat = b.dim_h.toNat * rowBytes b.dim_w.toNat := by
  have hle := frameBytes_le b.dim_w b.dim_h
  rw [lenWord, BitVec.toNat_ofNat, Nat.mod_eq_of_lt (by omega)]

theorem lenWord_writeDim_toNat (v : Word) (b : Block) :
    (lenWord (writeDim v b)).toNat = v.toNat / 2 ^ 16 * ((v.toNat % 2 ^ 16 + 7) / 8) := by
  rw [lenWord_toNat, writeDim_dim_h, writeDim_dim_w, dimHeight_toNat, dimWidth_toNat, rowBytes]

/-- Settles O15: the word is made of the programmed halves, and the example reads back what it wrote. -/
theorem rdDimReadsProgrammedDimensions : Obligations.RdDimReadsProgrammedDimensions := by
  refine ⟨decode_serialise_headerOf_readOf .dim, fun s => ⟨dimWord s.block, exec_rdDim s, dimWord_toNat s.block⟩,
    fun s => ?_⟩
  have hrun := runHost_write_reads (exec_wrDim 0x00020003 s) [.dim] (by decide)
  rwa [List.map_singleton, List.map_singleton, readValue, dimWord_writeDim] at hrun

/-- Settles O16: the product does not overflow, and each corner case fixes one of its factors. -/
theorem rdLenReadsByteCountOfDimensions : Obligations.RdLenReadsByteCountOfDimensions := by
  refine ⟨decode_serialise_headerOf_readOf .len, fun s => ?_⟩
  have hlen := lenWord_toNat s.block
  have hword (r : Word) (h : s.block.dim_h.toNat * rowBytes s.block.dim_w.toNat = r.toNat) : lenWord s.block = r :=
    BitVec.eq_of_toNat_eq (hlen.trans h)
  refine ⟨lenWord s.block, exec_rdLen s, hlen, hlen.trans_le (frameBytes_le _ _), ?_, fun hw => ?_, fun hw => ?_,
    fun hw hh => hword _ (by rw [hw, hh]; rfl), fun hw hh => hword _ (by rw [hw, hh]; rfl)⟩
  · rintro (hw | hh)
    · exact hword 0 (by rw [hw]; rfl)
    · exact hword 0 (by rw [hh]; exact Nat.zero_mul _)
  · rw [hlen, hw]; exact Nat.mul_one _
  · rw [hlen, hw]; exact Nat.mul_comm _ 2

/-- Settles O20: the two halves of `v` are the dimensions, so DIM reads `v` and LEN their byte count. -/
theorem wrDimProgramsDimensions : Obligations.WrDimProgramsDimensions := by
  refine ⟨fun v => decode_serialise_headerOf_writeOf .dim v v,
    fun v s => ⟨dimWidth v, dimHeight v, dimWidth_toNat v, dimHeight_toNat v, exec_wrDim v s⟩, fun v s => ?_,
    fun s => ?_, by decide⟩
  · obtain ⟨t, hrun⟩ := runHost_write_reads (exec_wrDim v s) [.dim, .len] (by decide)
    rw [List.map_cons (f := (readValue · _)), readValue, dimWord_writeDim] at hrun
    exact ⟨t, _, hrun, lenWord_writeDim_toNat v s.block⟩
  · have hlen : lenWord (writeDim 0x00400080 s.block) = 0x00000400 :=
      BitVec.eq_of_toNat_eq (lenWord_writeDim_toNat 0x00400080 s.block)
    rw [← hlen]
    exact runHost_write_reads (exec_wrDim 0x00400080 s) [.len] (by decide)

/-! ### POS and COUNT -/

theorem posWord_of_origin {b : Block} (hx : b.x = 0) (hy : b.y = 0) : posWord b = 0 := by
  rw [posWord, hx, hy]; rfl

/-- Settles O17: POS is the position counter, which the invariants tie to the accumulator and, at the end of a frame, to
its dimensions. -/
theorem rdPosReadsPositionCounter : Obligations.RdPosReadsPositionCounter := by
  refine ⟨decode_serialise_headerOf_readOf .pos, fun s => ?_, by decide⟩
  have hpos := posWord_toNat s.block
  refine ⟨posWord s.block, exec_rdPos s, hpos, fun hinv => ?_, fun hinv hdone hw hh => ?_, fun hinv hdone hzero => ?_⟩
  all_goals obtain ⟨-, -, ⟨hbits, -⟩, -, -, hend, -⟩ := hinv
  · omega
  · obtain ⟨hx, hy, -⟩ := hend hdone
    rw [hpos, hx, hy.resolve_right (not_or.mpr ⟨hw, hh⟩)]
    simp
  · obtain ⟨hx, -, hy⟩ := hend hdone
    exact posWord_of_origin hx (hy hzero).1

@[simp] theorem popOut_count (b : Block) : (popOut b).count = b.count := by
  obtain ⟨-, h⟩ | ⟨-, h⟩ := popOut_cases b <;> simp [h]

/-- Settles O18: a read of OUT keeps `count`, and a frame that is done has counted all its bytes. -/
theorem rdCountReadsFlushedBytes : Obligations.RdCountReadsFlushedBytes := by
  refine ⟨decode_serialise_headerOf_readOf .count, exec_rdCount, fun s => ⟨_, exec_rdOut s, popOut_count s.block⟩,
    fun s hinv hdone => ?_, by decide⟩
  obtain ⟨-, -, -, -, hcount, hend, -⟩ := hinv
  exact Block.count_of_done hcount hend hdone

end Sys2Proof.Machine
end

section
/-! SUPPORT and PROOF. The write of CTRL (41_control_and_config.md R130 to R133): what each of its sub-actions does
alone, and in order. -/

namespace Sys2Proof.Machine

/-! ### One sub-action alone -/

theorem writeCtrl_of_abort_only {v : Word} (b : Block) (h1 : v[1] = true) (h0 : v[0] = false) (h2 : v[2] = false) :
    writeCtrl v b = abort b := by
  simp [writeCtrl, ctrlStart, ctrlAbort, ctrlClrErr, h0, h1, h2]

theorem writeCtrl_of_clrErr_only {v : Word} (b : Block) (h2 : v[2] = true) (h0 : v[0] = false) (h1 : v[1] = false) :
    writeCtrl v b = clrErr b := by
  simp [writeCtrl, ctrlStart, ctrlAbort, ctrlClrErr, h0, h1, h2]

theorem writeCtrl_of_start_only {v : Word} (b : Block) (h0 : v[0] = true) (h1 : v[1] = false) (h2 : v[2] = false) :
    writeCtrl v b = start b := by
  simp [writeCtrl, ctrlStart, ctrlAbort, ctrlClrErr, h0, h1, h2]

/-! ### START -/

theorem start_of_refused {b : Block} (h : b.busy = true ∨ b.out_full = true) : start b = raise .cmd b :=
  if_pos ((startRefused_iff b).mpr h)

theorem start_of_accepted {b : Block} (hbusy : b.busy = false) (ho : b.out_full = false) : start b = startFrame b :=
  if_neg (by simp [startRefused_iff, hbusy, ho])

/-- Settles O24: refused, accepted without an area, accepted with one. -/
theorem startLatchesDimensionsOrIsRefused : Obligations.StartLatchesDimensionsOrIsRefused := by
  refine ⟨fun v s h0 h1 h2 => ?_, by decide⟩
  rw [exec_wrCtrl, writeCtrl_of_start_only s.block h0 h1 h2]
  refine ⟨fun hrefused => ?_, fun hbusy ho hzero => ?_, fun hbusy ho hw hh => ?_⟩
  · rw [start_of_refused hrefused]; rfl
  · rw [start_of_accepted hbusy ho, startFrame, (zeroArea_iff s.block).mpr hzero]; rfl
  · rw [start_of_accepted hbusy ho, startFrame, (zeroArea_eq_false_iff s.block).mpr ⟨hw, hh⟩]; rfl

/-! ### ABORT -/

/-- In a reachable state that runs no frame the column and the accumulator are 0 already. -/
theorem Block.Inv.abort_of_idle {b : Block} (h : b.Inv) (hbusy : b.busy = false) (ho : b.out_full = false) :
    abort b = { b with done := false, x := 0, y := 0, count := 0, out_data := 0 } := by
  obtain ⟨-, -, ⟨-, hidle⟩, hacc, -⟩ := h
  obtain ⟨-, hnbits⟩ := hidle hbusy
  have hacc0 : b.acc = 0 := by
    apply BitVec.eq_of_toNat_eq
    simpa [Block.accFits, hnbits] using hacc
  simp [abort, hbusy, ho, hnbits, hacc0]

/-- Settles O22: an ABORT alone is the sub-action, whose record is idle; a running frame that stops and is not done was
stopped by it, since an accepted START and the last pixel set `busy` or `done`. -/
theorem abortClearsTheDatapath : Obligations.AbortClearsTheDatapath := by
  refine ⟨fun v s h1 h0 h2 => ?_, fun s => ?_, fun s hinv hbusy ho => ?_, fun i s t hexec hbusy hidle hdone => ?_⟩
  · rw [exec_wrCtrl, writeCtrl_of_abort_only s.block h1 h0 h2]; rfl
  · have hexec := exec_wrCtrl 0x2 s
    rw [writeCtrl_of_abort_only s.block rfl rfl rfl] at hexec
    obtain ⟨t, hrun⟩ := runHost_write_reads hexec [.status, .pos, .count] (by decide)
    have hpos : posWord (abort s.block) = 0 := posWord_of_origin rfl rfl
    simp only [List.map_cons, List.map_nil, readValue, hpos, abort_count] at hrun
    exact ⟨t, statusWord (abort s.block), hrun, statusWord_busy _, statusWord_done _, statusWord_inReady _,
      statusWord_out_full _⟩
  · rw [exec_wrCtrl, writeCtrl_of_abort_only s.block rfl rfl rfl, hinv.abort_of_idle hbusy ho]; rfl
  · obtain ⟨hkept, -⟩ | ⟨-, -, -, -, hend, -⟩ | ⟨v, hi, hv, -⟩ | ⟨-, -, -, -, -, -, hb, hd⟩ :=
      exec_busy_done_cases hexec
    · simp [hkept, hbusy] at hidle
    · simp [hend] at hdone
    · exact ⟨v, hi, hv⟩
    · simp [hb, ← hd, hdone] at hidle

/-! ### CLR_ERR -/

theorem statusWord_clrErr_of_idle {b : Block} (hbusy : b.busy = false) (hdone : b.done = false)
    (ho : b.out_full = false) : statusWord (clrErr b) = 0 := by
  simp only [statusWord, inReady, clrErr, hbusy, hdone, ho]
  rfl

/-- Settles O23: STATUS 0x50 is an idle block with two error flags, and CLR_ERR leaves the block idle. -/
theorem clrErrClearsTheThreeFlags : Obligations.ClrErrClearsTheThreeFlags := by
  refine ⟨fun v s h2 h0 h1 => ?_, fun s hread => ?_⟩
  · rw [exec_wrCtrl, writeCtrl_of_clrErr_only s.block h2 h0 h1]; rfl
  · have hstatus : statusWord s.block = 0x00000050 := by
      rw [exec_rdStatus] at hread
      injection hread with hread
      exact congrArg State.rdata hread
    have hbusy := statusWord_busy s.block
    have hdone := statusWord_done s.block
    have ho := statusWord_out_full s.block
    rw [hstatus] at hbusy hdone ho
    have hexec := exec_wrCtrl 0x4 s
    rw [writeCtrl_of_clrErr_only s.block rfl rfl rfl] at hexec
    have hrun := runHost_write_reads hexec [.status] (by decide)
    rwa [List.map_singleton, List.map_singleton, readValue,
      statusWord_clrErr_of_idle hbusy.symm hdone.symm ho.symm] at hrun

/-! ### The sub-actions in order -/

/-- START with R133's conditions written out. -/
theorem start_eq (b : Block) :
    start b = if b.busy = true ∨ b.out_full = true then { b with err_cmd := true } else { b with
      cfg_w := b.dim_w, cfg_h := b.dim_h, acc := 0, nbits := 0, x := 0, y := 0, count := 0,
      busy := decide (¬(b.dim_w = 0 ∨ b.dim_h = 0)), done := decide (b.dim_w = 0 ∨ b.dim_h = 0) } := by
  have hzero : zeroArea b = decide (b.dim_w = 0 ∨ b.dim_h = 0) := by
    rw [Bool.eq_iff_iff, zeroArea_iff, decide_eq_true_iff]
  simp only [start, startRefused_iff, startFrame, hzero, decide_not]
  rfl

/-- The reserved bits of CTRL alone command nothing (41_control_and_config.md R130). -/
theorem writeCtrl_of_reserved {v : Word} (h : v &&& 0x7 = 0) (b : Block) : writeCtrl v b = b := by
  have hbit (k : Nat) (hk : (0x7 : Word).getLsbD k = true) : v.getLsbD k = false := by
    have hand := congrArg (·.getLsbD k) h
    rwa [BitVec.getLsbD_and, hk, Bool.and_true, BitVec.ofNat_eq_ofNat, BitVec.getLsbD_zero] at hand
  exact writeCtrl_of_no_command v b (hbit 0 rfl) (hbit 1 rfl) (hbit 2 rfl)

/-- An ABORT in the same write makes START acceptable. -/
theorem writeCtrl_abort_start (b : Block) : writeCtrl 0x3 b = startFrame (abort b) :=
  writeCtrl_of_accepted rfl (.inl rfl)

theorem writeCtrl_abort_clrErr_start (b : Block) : writeCtrl 0x7 b = startFrame (clrErr (abort b)) :=
  writeCtrl_of_accepted rfl (.inl rfl)

/-- CLR_ERR leaves the reasons for refusing a START, so a refused one sets ERR_CMD again. -/
theorem writeCtrl_clrErr_start_of_refused {b : Block} (h : b.busy = true ∨ b.out_full = true) :
    writeCtrl 0x5 b = raise .cmd (clrErr b) :=
  start_of_refused (b := clrErr b) h

/-- Settles O21: the composition of the sub-actions with START written out; after an ABORT the START is accepted. -/
theorem wrCtrlRunsSubActionsInOrder : Obligations.WrCtrlRunsSubActionsInOrder := by
  refine ⟨fun v => decode_serialise_headerOf_writeOf .ctrl v v, fun v s => ?_, fun v s hv => ?_,
    fun s => ⟨_, exec_wrCtrl 0x3 s, ?_⟩, fun s hrefused => ?_, fun s => ⟨_, exec_wrCtrl 0x7 s, ?_⟩, by decide⟩
  · simp only [exec_wrCtrl, writeCtrl, start_eq]
    rfl
  · rw [exec_wrCtrl, writeCtrl_of_reserved hv]; rfl
  · rw [State.write_block, writeCtrl_abort_start]
    simp
  · rw [exec_wrCtrl, writeCtrl_clrErr_start_of_refused hrefused]; rfl
  · rw [State.write_block, writeCtrl_abort_clrErr_start]
    simp [Block.noErrors]

end Sys2Proof.Machine
end

section
/-! SUPPORT and PROOF. The pixel write and the read of OUT (42_pixel_and_output.md R160, R162): what each answers in its
two cases, and the byte of a frame one pixel wide. -/

namespace Sys2Proof.Machine

/-! ### A write of PIXEL -/

@[simp] theorem pixelStep_err_ovf (t : TailAlign) (p : Word) (b : Block) : (pixelStep t p b).err_ovf = b.err_ovf := by
  rw [pixelStep, advance_err_ovf, packBit_err_ovf]

@[simp] theorem pixelStep_err_udf (t : TailAlign) (p : Word) (b : Block) : (pixelStep t p b).err_udf = b.err_udf := by
  rw [pixelStep, advance_err_udf, packBit_err_udf]

@[simp] theorem pixelStep_err_cmd (t : TailAlign) (p : Word) (b : Block) : (pixelStep t p b).err_cmd = b.err_cmd := by
  rw [pixelStep, advance_err_cmd, packBit_err_cmd]

/-- A flushed byte holds the bits so far and the pixel's own. -/
theorem pixelStep_out_data_of_flushes (t : TailAlign) (p : Word) {b : Block} (h : flushes b = true) :
    (pixelStep t p b).out_data = tail t (accumulate b.acc (pixelBit p)) (bitsAfter b) := by
  rw [pixelStep, advance_out_data, packBit, if_pos h, flushByte_out_data]

/-- Between two pixels of a running frame one pixel wide the block is at column 0 and holds no bit. -/
theorem Block.Inv.single_column_holds_no_bit {b : Block} (h : b.Inv) (hbusy : b.busy = true) (hw : b.cfg_w = 1) :
    lastColumn b = true ∧ bitsAfter b = 1 ∧ b.acc = 0 := by
  obtain ⟨-, hpos, ⟨hbits, -⟩, hacc, -⟩ := h
  obtain ⟨-, -, hx, -⟩ := hpos hbusy
  have hw1 : b.cfg_w.toNat = 1 := congrArg BitVec.toNat hw
  have hx0 : b.x.toNat = 0 := by omega
  have hn0 : b.nbits.toNat = 0 := by rw [hbits, hx0]
  refine ⟨(lastColumn_iff b).mpr (by rw [hx0, hw1]), by rw [bitsAfter, hn0], BitVec.eq_of_toNat_eq ?_⟩
  rw [Block.accFits, hn0] at hacc
  exact Nat.lt_one_iff.mp hacc

/-- Settles O26: the two cases of IN_READY; with one column each pixel is the last of its row, so its bit alone makes a
byte. -/
theorem wrPixelAcceptedOrDropped : Obligations.WrPixelAcceptedOrDropped := by
  refine ⟨fun v => decode_serialise_headerOf_writeOf .pixel v v, fun v s hbusy ho => ?_, fun v s hnot => ?_,
    fun t v b hinv hbusy ho hw => ?_, by decide, by decide, by decide⟩
  · exact ⟨exec_wrPixel_of_ready v hbusy ho, pixelStep_err_ovf .., pixelStep_err_udf .., pixelStep_err_cmd ..⟩
  · rw [exec_wrPixel, writePixel_of_not_ready _ _ _ ((inReady_eq_false_iff _).mpr hnot)]; rfl
  · obtain ⟨hlast, hbits, hacc⟩ := hinv.single_column_holds_no_bit hbusy hw
    have hflush : flushes b = true := (flushes_iff b).mpr (.inr ((lastColumn_iff b).mp hlast))
    refine ⟨(pixelStep_out_full t v ho).trans hflush, ?_⟩
    rw [pixelStep_out_data_of_flushes t v hflush, hacc, hbits]
    cases t <;> cases pixelBit v <;> rfl

/-! ### A read of OUT -/

/-- A waiting byte reads with VALID, bit 8, set (10_state.md R36). -/
theorem outWord_toNat_of_full {b : Block} (h : b.out_full = true) : (outWord b).toNat = 256 + b.out_data.toNat := by
  have hlt : b.out_data.toNat < 2 ^ 8 := b.out_data.isLt
  rw [outWord_of_full b h, BitVec.toNat_setWidth, BitVec.toNat_append, Nat.shiftLeft_eq, Nat.mul_comm,
    ← Nat.two_pow_add_eq_or_of_lt hlt]
  exact Nat.mod_eq_of_lt (by simp; omega)

/-- Once the waiting byte is read, IN_READY is `busy` (42_pixel_and_output.md R162). -/
theorem inReady_popOut_of_full {b : Block} (h : b.out_full = true) : inReady (popOut b) = b.busy := by
  rw [popOut_of_full b h]
  exact Bool.and_true b.busy

theorem exec_rdOut_of_full {s : State} (h : s.block.out_full = true) :
    exec .rdOut s = .next (s.complete { s.block with out_full := false } (outWord s.block)) := by
  rw [exec_rdOut, popOut_of_full s.block h]

theorem exec_rdOut_of_empty {s : State} (h : s.block.out_full = false) :
    exec .rdOut s = .next (s.complete { s.block with err_udf := true } 0) := by
  rw [exec_rdOut, popOut_of_empty s.block h, outWord_of_empty s.block h]; rfl

/-- Settles O29: the two cases of OUT_VALID; a second read finds OUT empty, and the pop leaves IN_READY to `busy`. -/
theorem rdOutPopsOrSetsErrUdf : Obligations.RdOutPopsOrSetsErrUdf := by
  refine ⟨decode_serialise_headerOf_readOf .out, fun s hfull => ?_, fun s => exec_rdOut_of_empty,
    fun s hfull hdata => ?_, fun s hfull hdata => ?_⟩
  · exact ⟨outWord s.block, outWord_toNat_of_full hfull, exec_rdOut_of_full hfull,
      (runHost_cons_iff ..).mpr ⟨_, _, exec_rdOut_of_full hfull,
        (runHost_cons_iff ..).mpr ⟨_, _, exec_rdOut_of_empty rfl, rfl, rfl⟩, rfl⟩⟩
  · refine ⟨_, exec_rdOut_of_full hfull, BitVec.eq_of_toNat_eq ?_⟩
    rw [State.complete_rdata, outWord_toNat_of_full hfull, hdata]; rfl
  · have hout : outWord s.block = 0x000001FF := by
      apply BitVec.eq_of_toNat_eq
      rw [outWord_toNat_of_full hfull, hdata]; rfl
    obtain ⟨t, hstatus⟩ := runHost_reads [.status] (by decide) (s.complete (popOut s.block) (outWord s.block))
    refine ⟨t, statusWord (popOut s.block), (runHost_cons_iff ..).mpr ⟨_, _, exec_rdOut s, hstatus, ?_⟩, ?_, ?_⟩
    · rw [State.complete_rdata, hout]; rfl
    · rw [statusWord_out_full, popOut_of_full s.block hfull]
    · rw [statusWord_inReady, inReady_popOut_of_full hfull]

end Sys2Proof.Machine
end

section
/-! SUPPORT and PROOF. The error flags (60_exceptions.md R181 to R184): what a flag is after a transaction, by its cause
and by CLR_ERR, said once for the three flags; each statement follows from it. -/

namespace Sys2Proof.Machine

/-! ### The flags and the operations on the record -/

theorem errorFlag_raise (e d : ErrorCause) (b : Block) :
    errorFlag e (raise d b) = true ↔ d = e ∨ errorFlag e b = true := by
  cases e <;> cases d <;> simp [errorFlag]

/-- A flag that is already 1 stays 1, and nothing counts the repeated error (60_exceptions.md R182). -/
theorem raise_of_errorFlag {e : ErrorCause} {b : Block} (h : errorFlag e b = true) : raise e b = b := by
  cases e <;> (simp only [raise, ← h]; rfl)

@[simp] theorem errorFlag_pixelStep (e : ErrorCause) (t : TailAlign) (p : Word) (b : Block) :
    errorFlag e (pixelStep t p b) = errorFlag e b := by
  cases e <;> simp [errorFlag]

/-- The code of an error is its STATUS bit (60_exceptions.md R181). -/
theorem statusWord_getLsbD_code (e : ErrorCause) (b : Block) : (statusWord b).getLsbD e.code = errorFlag e b := by
  cases e
  · exact statusWord_err_ovf b
  · exact statusWord_err_udf b
  · exact statusWord_err_cmd b

/-- A START that is refused in a write of CTRL: CLR_ERR runs before it, and it sets ERR_CMD (41_control_and_config.md
R130, R133). -/
theorem writeCtrl_of_refused {v : Word} {b : Block} (hs : v[0] = true) (ha : v[1] = false)
    (hr : b.busy = true ∨ b.out_full = true) :
    writeCtrl v b = raise .cmd (if v[2] then clrErr b else b) := by
  have hbefore : beforeStart v b = if v[2] then clrErr b else b := by
    simp [beforeStart, ctrlAbort, ctrlClrErr, ha]
  have href : startRefused (beforeStart v b) = true := by
    rw [startRefused_beforeStart, ctrlAbort, ha, (startRefused_iff b).mpr hr]; rfl
  rw [writeCtrl_eq_start, ctrlStart, if_pos hs, start_of_refused ((startRefused_iff _).mp href), hbefore]

/-! ### What raises a flag and what clears it -/

/-- The cause of each error: the one transaction that raises it, and the record in which it does (60_exceptions.md
R181). -/
def ErrorCause.RaisedBy (e : ErrorCause) (i : Instr) (b : Block) : Prop :=
  match e with
  | .ovf => (∃ v, i = .wrPixel v) ∧ ¬(b.busy = true ∧ b.out_full = false)
  | .udf => i = .rdOut ∧ b.out_full = false
  | .cmd => ∃ v, i = .wrCtrl v ∧ v[0] = true ∧ v[1] = false ∧ (b.busy = true ∨ b.out_full = true)

/-- A write of CTRL with CLR_ERR, the only transaction that clears error flags (60_exceptions.md R183). -/
def ClearsErrors (i : Instr) : Prop := ∃ v, i = .wrCtrl v ∧ v[2] = true

/-- A flag after a transaction: its error was raised, or it was set before and not cleared. -/
theorem exec_errorFlag_iff (e : ErrorCause) {i : Instr} {s t : State} (h : exec i s = .next t) :
    errorFlag e t.block = true ↔ e.RaisedBy i s.block ∨ errorFlag e s.block = true ∧ ¬ClearsErrors i := by
  obtain ⟨v, rfl, hb⟩ | ⟨v, rfl, hb⟩ | ⟨v, rfl, hb⟩ | ⟨rfl, hb⟩ | ⟨hctrl, hpixel, -, hout, hb⟩ :=
    exec_block_cases h <;> rw [hb]
  · cases e <;>
      simp [errorFlag, ErrorCause.RaisedBy, ClearsErrors, writeCtrl_err_cmd, startRefused, ctrlStart, ctrlAbort,
        ctrlClrErr, and_comm, or_comm]
  · obtain ⟨hbusy, ho, hw⟩ | ⟨hno, hw⟩ := writePixel_cases .lsbLiteral v s.block <;> rw [hw]
    · cases e <;> simp [ErrorCause.RaisedBy, ClearsErrors, hbusy, ho]
    · rw [errorFlag_raise]; cases e <;> simp [ErrorCause.RaisedBy, ClearsErrors, hno]
  · cases e <;> simp [errorFlag, ErrorCause.RaisedBy, ClearsErrors]
  · obtain ⟨hfull, hp⟩ | ⟨hempty, hp⟩ := popOut_cases s.block <;> rw [hp]
    · cases e <;> simp [errorFlag, ErrorCause.RaisedBy, ClearsErrors, hfull]
    · rw [errorFlag_raise]; cases e <;> simp [ErrorCause.RaisedBy, ClearsErrors, hempty]
  · cases e <;> simp [ErrorCause.RaisedBy, ClearsErrors, hctrl, hpixel, hout]

/-- A flag that was 0 rises exactly when its error is raised. -/
theorem exec_errorFlag_rises_iff {e : ErrorCause} {i : Instr} {s t : State} (h : exec i s = .next t)
    (h0 : errorFlag e s.block = false) : errorFlag e t.block = true ↔ e.RaisedBy i s.block := by
  simp [exec_errorFlag_iff e h, h0]

/-- The one error a transaction of this kind can raise, if any (60_exceptions.md R181). -/
def errorOf : Instr → Option ErrorCause
  | .wrPixel _ => some .ovf
  | .rdOut => some .udf
  | .wrCtrl _ => some .cmd
  | _ => none

/-- Each error belongs to one transaction kind (60_exceptions.md R184). -/
theorem ErrorCause.RaisedBy.errorOf_eq {e : ErrorCause} {i : Instr} {b : Block} (h : e.RaisedBy i b) :
    errorOf i = some e := by
  cases e with
  | ovf => obtain ⟨⟨v, rfl⟩, -⟩ := h; rfl
  | udf => obtain ⟨rfl, -⟩ := h; rfl
  | cmd => obtain ⟨v, rfl, -⟩ := h; rfl

/-- Settles O35: a flag that was 0 is 1 after a transaction exactly on its cause, which `RaisedBy` writes out. -/
theorem errorFlagsRiseOnTheirCauses : Obligations.ErrorFlagsRiseOnTheirCauses :=
  ⟨fun _ _ _ h => ⟨exec_errorFlag_rises_iff (e := .ovf) h, exec_errorFlag_rises_iff (e := .udf) h,
      exec_errorFlag_rises_iff (e := .cmd) h⟩,
    fun e s => ⟨_, exec_rdStatus s, statusWord_getLsbD_code e s.block⟩, rfl, rfl, rfl⟩

/-! ### An error is precise -/

/-- An erring transaction other than a write of CTRL does nothing but set its flag. -/
theorem ErrorCause.RaisedBy.block_eq {e : ErrorCause} {i : Instr} {s t : State} (hr : e.RaisedBy i s.block)
    (h : exec i s = .next t) (hctrl : isCtrlWrite i = false) : t.block = raise e s.block := by
  cases e with
  | ovf =>
    obtain ⟨⟨v, rfl⟩, hno⟩ := hr
    cases h
    exact writePixel_of_not_ready _ _ _ (Bool.eq_false_of_not_eq_true (mt (inReady_iff _).mp hno))
  | udf =>
    obtain ⟨rfl, hempty⟩ := hr
    cases h
    exact popOut_of_empty _ hempty
  | cmd =>
    obtain ⟨v, rfl, -⟩ := hr
    cases hctrl

/-- Settles O36: a flag that rose was raised, so the transaction is the one of its cause; setting a flag that is set
changes nothing. -/
theorem errorsArePrecise : Obligations.ErrorsArePrecise := by
  refine ⟨fun e i s t h h0 h1 => ?_, fun s => ⟨fun hset hno v => ?_, fun hset hempty => ?_, fun hset hrefused => ?_⟩⟩
  · have hr := (exec_errorFlag_rises_iff h h0).mp h1
    refine ⟨hr.block_eq h, ?_⟩
    rintro v rfl
    obtain rfl : .cmd = e := Option.some.inj hr.errorOf_eq
    obtain ⟨_, ⟨⟩, hs, ha, href⟩ := hr
    cases h
    exact ⟨rfl, writeCtrl_of_refused hs ha href⟩
  · rw [exec_wrPixel, writePixel_of_not_ready _ _ _ ((inReady_eq_false_iff _).mpr hno),
      raise_of_errorFlag (e := .ovf) hset]
    rfl
  · rw [exec_rdOut, popOut_of_empty _ hempty, raise_of_errorFlag (e := .udf) hset, outWord_of_empty _ hempty]
    rfl
  · rw [exec_wrCtrl, writeCtrl_of_start_only _ rfl rfl rfl, start_of_refused hrefused,
      raise_of_errorFlag (e := .cmd) hset]
    rfl

/-! ### What clears a flag -/

/-- A step keeps the record, or its cycle resets the block or runs the decoded transaction. -/
theorem step_cycle_cases {s t : State} (h : step s = .next t) :
    t.block = s.block ∨
      ∃ c rest, s.pending = c :: rest ∧
        (c.rst = true ∨ c.sel = true ∧ exec (decode c.word) (s.withPending rest) = .next t) := by
  cases hp : s.pending with
  | nil => rw [step_of_nil hp] at h; cases h; exact .inl rfl
  | cons c rest =>
    cases hrst : c.rst with
    | true => exact .inr ⟨c, rest, rfl, .inl hrst⟩
    | false =>
      cases hsel : c.sel with
      | true => exact .inr ⟨c, rest, rfl, .inr ⟨hsel, (step_of_sel hp hrst hsel).symm.trans h⟩⟩
      | false => rw [step_of_no_sel hp hrst hsel] at h; cases h; exact .inl rfl

/-- Only a write of CTRL with CLR_ERR takes a flag from 1 to 0. -/
theorem clearsErrors_of_errorFlag_falls {e : ErrorCause} {i : Instr} {s t : State} (h : exec i s = .next t)
    (h1 : errorFlag e s.block = true) (h0 : errorFlag e t.block = false) : ClearsErrors i := by
  by_contra hno
  exact Bool.false_ne_true (h0.symm.trans ((exec_errorFlag_iff e h).mpr (.inr ⟨h1, hno⟩)))

/-- Settles O37: a step whose record changes resets the block or runs a transaction; after CLR_ERR only the write's own
refused START leaves a flag. -/
theorem onlyClrErrAndResetClearErrors : Obligations.OnlyClrErrAndResetClearErrors := by
  refine ⟨fun e s t hstep h1 h0 => ?_, fun v s h2 => ⟨_, exec_wrCtrl v s, ?_, ?_, fun hcmd => ?_⟩⟩
  · obtain hkept | ⟨c, rest, hp, hrst | ⟨hsel, hexec⟩⟩ := step_cycle_cases hstep
    · rw [hkept, h1] at h0; cases h0
    · exact ⟨c, rest, hp, .inl hrst⟩
    · exact ⟨c, rest, hp, .inr ⟨hsel, clearsErrors_of_errorFlag_falls (s := s.withPending rest) hexec h1 h0⟩⟩
  · simp [ctrlClrErr, h2]
  · simp [ctrlClrErr, h2]
  · obtain ⟨_, ⟨⟩, hs, ha, href⟩ | ⟨-, hno⟩ := (exec_errorFlag_iff .cmd (exec_wrCtrl v s)).mp hcmd
    · exact ⟨hs, ha, href⟩
    · exact absurd ⟨v, rfl, h2⟩ hno

/-! ### One error at most -/

/-- Settles O38: two errors raised by one transaction are the same; after an ABORT in the same write START is
accepted. -/
theorem atMostOneErrorPerTransaction : Obligations.AtMostOneErrorPerTransaction := by
  refine ⟨fun d e i s t h hd0 hd1 he0 he1 => ?_, fun s href => ⟨_, exec_wrCtrl 0x5 s, ?_⟩,
    fun s => ⟨_, exec_wrCtrl 0x3 s, ?_⟩⟩
  · have hd : errorOf i = some d := ((exec_errorFlag_rises_iff h hd0).mp hd1).errorOf_eq
    have he : errorOf i = some e := ((exec_errorFlag_rises_iff h he0).mp he1).errorOf_eq
    exact Option.some.inj (hd.symm.trans he)
  · exact (exec_errorFlag_iff .cmd (exec_wrCtrl 0x5 s)).mpr (.inl ⟨0x5, rfl, rfl, rfl, href⟩)
  · rw [State.write_block, writeCtrl_abort_start, startFrame_err_cmd, abort_err_cmd]

end Sys2Proof.Machine
end

section
/-! SUPPORT and PROOF. Reset, back pressure and the end of a frame (70_reset_and_hazards.md R200 to R208): what the
registers read once the block is idle, what a waiting byte holds back, and one frame after the other. -/

namespace Sys2Proof.Machine

/-! ### A FrameSet -/

/-- Settles O53: a frame sent by the host's protocol leaves a block that accepts the next START, so the frames are sent
one by one. -/
theorem frameSequenceEncodesEachFrame : Obligations.FrameSequenceEncodesEachFrame := by
  intro polls w h fs
  induction fs with
  | nil => exact fun s _ _ _ _ => ⟨s, rfl⟩
  | cons f fs ih =>
    intro s hpolls hbusy ho hlen
    obtain ⟨hf, hfs⟩ := List.forall_mem_cons.mp hlen
    obtain ⟨t, bs, hsend, rfl, -, htbusy, hto, -⟩ := streamingEquivalence polls w h f s hpolls hbusy ho hf
    obtain ⟨u, hrest⟩ := ih t hpolls htbusy hto hfs
    exact ⟨u, by simp only [sendFrames, hsend, hrest, List.map_cons]⟩

/-! ### Back pressure -/

theorem writePixel_of_full (t : TailAlign) (p : Word) {b : Block} (h : b.out_full = true) :
    writePixel t p b = raise .ovf b :=
  writePixel_of_not_ready t p b ((inReady_eq_false_iff b).mpr (.inr h))

theorem writeCtrl_one_of_full {b : Block} (h : b.out_full = true) : writeCtrl 0x1 b = raise .cmd b :=
  start_of_refused (.inr h)

/-- The record without DIM and the error flags: the frame and its output. -/
def Block.frame (b : Block) : Block :=
  { b with dim_w := 0, dim_h := 0, err_ovf := false, err_udf := false, err_cmd := false }

/-- Two records with the same frame agree in all that a host sees of it. -/
theorem Block.progress_eq_of_frame_eq {a b : Block} (h : a.frame = b.frame) :
    a.busy = b.busy ∧ a.out_full = b.out_full ∧ a.out_data = b.out_data ∧ a.x = b.x ∧ a.y = b.y ∧ a.count = b.count := by
  simp_all [Block.frame]

theorem Block.sameButErrors.frame_eq {a b : Block} (h : a.sameButErrors b) : a.frame = b.frame := by
  simp [Block.frame, (Block.sameButErrors_iff a b).mp h]

@[simp] theorem frame_raise (e : ErrorCause) (b : Block) : (raise e b).frame = b.frame := by cases e <;> rfl

@[simp] theorem frame_writeDim (v : Word) (b : Block) : (writeDim v b).frame = b.frame := rfl

/-- While a byte waits, every transaction but a read of OUT and an ABORT changes only DIM and the error flags. -/
theorem exec_keeps_frame {i : Instr} {s t : State} (h : exec i s = .next t) (hfull : s.block.out_full = true)
    (hout : i ≠ .rdOut) (habort : ∀ v, i = .wrCtrl v → v[1] = false) : t.block.frame = s.block.frame := by
  obtain ⟨v, rfl, hb⟩ | ⟨v, rfl, hb⟩ | ⟨v, rfl, hb⟩ | ⟨rfl, -⟩ | ⟨-, -, -, -, hb⟩ := exec_block_cases h
  · have hrefused : startRefused s.block = true := (startRefused_iff _).mpr (.inr hfull)
    rw [hb]
    exact (writeCtrl_sameButErrors (habort v rfl) fun _ => hrefused).frame_eq
  · rw [hb, writePixel_of_full _ _ hfull, frame_raise]
  · rw [hb, frame_writeDim]
  · exact absurd rfl hout
  · rw [hb]

/-- Transactions without a read of OUT and an ABORT leave the frame where the waiting byte stopped it. -/
theorem runHost_keeps_frame (is : List Instr) : ∀ {s u : State} {rs : List Word}, s.block.out_full = true →
    (∀ i ∈ is, i ≠ .rdOut ∧ ∀ v, i = .wrCtrl v → v[1] = false) → runHost is s = some (u, rs) →
    u.block.frame = s.block.frame := by
  induction is with
  | nil =>
    intro s u rs _ _ hrun
    cases hrun
    rfl
  | cons i is ih =>
    intro s u rs hfull hall hrun
    obtain ⟨t, rs', hexec, hrun', -⟩ := (runHost_cons_iff ..).mp hrun
    obtain ⟨⟨hout, habort⟩, hrest⟩ := List.forall_mem_cons.mp hall
    have hkept := exec_keeps_frame hexec hfull hout habort
    obtain ⟨-, htfull, -⟩ := Block.progress_eq_of_frame_eq hkept
    exact (ih (htfull.trans hfull) hrest hrun').trans hkept

/-- Settles O45: the waiting byte keeps the frame as it is, and while a frame runs nothing else makes IN_READY 0. -/
theorem backPressureUntilOutIsRead : Obligations.BackPressureUntilOutIsRead := by
  refine ⟨fun is s u rs hbusy hfull hall hrun => ?_, fun s _ hfull => ?_, fun s hbusy => ⟨_, exec_rdStatus s, ?_⟩⟩
  · obtain ⟨hub, huf, hdata, hx, hy, hcount⟩ :=
      Block.progress_eq_of_frame_eq (runHost_keeps_frame is hfull hall hrun)
    have hufull := huf.trans hfull
    refine ⟨hub.trans hbusy, hufull, hdata, hx, hy, hcount, fun v => ?_⟩
    rw [exec_wrPixel, writePixel_of_full _ _ hufull]
    rfl
  · rw [exec_wrCtrl, writeCtrl_one_of_full hfull]
    rfl
  · rw [State.read_rdata, readValue, statusWord_inReady, inReady_eq_false_iff, hbusy]
    simp

/-! ### The end of a frame -/

/-- Settles O46: the invariants give COUNT and keep BUSY 0 once DONE is 1, so only a waiting byte refuses the START. -/
theorem endedFrameIsCompleteAndRestartable : Obligations.EndedFrameIsCompleteAndRestartable := by
  refine ⟨fun v s hinv hend hstart => ?_, fun s hinv _ hfull => ?_⟩
  all_goals obtain ⟨hbusyNotDone, -, -, -, -, -, -, hwaiting, hcount⟩ := hinv
  · have hidle : s.block.busy = false := Bool.eq_false_of_not_eq_true fun hbusy => hbusyNotDone ⟨hbusy, hend.1⟩
    refine ⟨hcount hend, _, exec_wrCtrl v s, ?_⟩
    rw [State.write_block, writeCtrl_of_accepted hstart (.inr ⟨hidle, hend.2⟩)]
    simp +contextual
  · refine ⟨hwaiting hfull, _, exec_wrCtrl 0x1 s, ?_⟩
    rw [State.write_block, writeCtrl_one_of_full hfull]
    rfl

/-! ### Reset -/

/-- A read of any register, OUT among them, returns its value in the record before the read (20_memory.md R56). -/
theorem exec_readOf_rdata (r : Reg) (s : State) : ∃ t, exec (readOf r) s = .next t ∧ t.rdata = readValue r s.block := by
  by_cases hr : r = .out
  · subst hr; exact ⟨_, exec_rdOut s, rfl⟩
  · exact ⟨_, exec_readOf hr s, rfl⟩

theorem readValue_reset (r : Reg) : readValue r Block.reset = 0 := by
  cases r <;> rfl

/-- Settles O9: the reset cycle is taken before `sel` is looked at, and every register of the reset record reads 0. -/
theorem hardwareResetCycle : Obligations.HardwareResetCycle := by
  refine ⟨fun s c rest hp hrst => step_of_rst hp hrst, fun s r hb => ?_⟩
  obtain ⟨t, hexec, hread⟩ := exec_readOf_rdata r s
  exact ⟨t, hexec, by rw [hread, hb]; exact readValue_reset r⟩

theorem writeCtrl_abort_clrErr (b : Block) : writeCtrl 0x6 b = clrErr (abort b) := rfl

/-- After ABORT and CLR_ERR only the registers of the programmed dimensions can read other than 0. -/
theorem readValue_clrErr_abort {r : Reg} (hdim : r ≠ .dim) (hlen : r ≠ .len) (b : Block) :
    readValue r (clrErr (abort b)) = 0 := by
  cases r with
  | dim => exact absurd rfl hdim
  | len => exact absurd rfl hlen
  | status => exact statusWord_clrErr_of_idle rfl rfl rfl
  | pos => exact posWord_of_origin rfl rfl
  | out => exact outWord_of_empty _ rfl
  | ctrl | pixel | count => rfl

/-- Settles O25: 0x6 is ABORT and then CLR_ERR; ABORT alone writes neither DIM nor the latched dimensions nor the error
flags. -/
theorem softResetLeavesRegistersAsAfterReset : Obligations.SoftResetLeavesRegistersAsAfterReset := by
  refine ⟨fun s => ⟨_, exec_wrCtrl 0x6 s, fun r hdim hlen => ?_, ?_⟩, fun s => ⟨_, exec_wrCtrl 0x2 s, ?_⟩⟩
  · obtain ⟨u, hexec, hread⟩ := exec_readOf_rdata r (s.write (writeCtrl 0x6 s.block))
    refine ⟨u, hexec, hread.trans ?_⟩
    rw [State.write_block, writeCtrl_abort_clrErr, readValue_clrErr_abort hdim hlen]
  · exact ⟨writeCtrl_dim_w 0x6 s.block, writeCtrl_dim_h 0x6 s.block⟩
  · rw [State.write_block, writeCtrl_of_abort_only _ rfl rfl rfl]
    simp

end Sys2Proof.Machine
end
